-- ==== Sys2Proof/Word.lean ====
section
/-! DEFINITION. The word types of the RSE (spec/00_scope.md R7, R9). -/

namespace Sys2Proof

/-- One byte of a bus transaction (DATA_WIDTH, R7). -/
abbrev Byte := BitVec 8

/-- A 16-bit field of the metrics or of the frame clock, or a CMD16 command word (R7, R61). -/
abbrev Half := BitVec 16

/-- A raster line: LINE_WIDTH is 9 bits (R7). -/
abbrev Line := BitVec 9

/-- A register offset within the window (R42). -/
abbrev Offset := BitVec 6

/-- The index of an entry of the step table (R16, R25, R27). -/
abbrev StepIndex := BitVec 3

/-- One bus transaction as a number: `{W, OFF, DATA}` (R62). -/
abbrev BusWord := BitVec 15

end Sys2Proof
end

