-- ==== Sys2Proof/Config.lean ====
section
/-! DEFINITION. The implementation parameters and fixed values of the RSE (spec/00_scope.md R7, R8).

The spec leaves no result of an operation open, so there is no free value here: its parameters are arguments of the
model (R8), held in State and never written by a step. -/

namespace Sys2Proof

/-- The named parameters the spec leaves open (R8). DESIGN CHOICE, safe: they stand in State (assumption log 1), so
that one model covers every configuration and every statement ranges over all of them. -/
structure Params where
  /-- P_BASE: host address of offset 0x00 of the register window. -/
  base : Nat
  /-- P_HW_LINES: raster lines per frame the beam really produces. -/
  hwLines : Nat
  /-- P_BOTTOM_INVISIBLE: subtracted from TOTAL_LINES to resolve the sentinel line. -/
  bottomInvisible : Nat
  /-- P_DEFAULT_LINE: the line ENABLE arms when no step is configured. -/
  defaultLine : Nat
  /-- P_POLL_THRESHOLD: the threshold of the frame-wait polling fallback. -/
  pollThreshold : Nat
  deriving DecidableEq, Repr

/-- The constraints of R8, one conjunct a row. -/
abbrev Params.Valid (p : Params) : Prop :=
  p.base % 64 = 0
    ∧ (2 ≤ p.hwLines ∧ p.hwLines ≤ 512)
    ∧ (1 ≤ p.bottomInvisible ∧ p.bottomInvisible ≤ 262)
    ∧ p.defaultLine < p.hwLines
    ∧ (1 ≤ p.pollThreshold ∧ p.pollThreshold < p.hwLines)

/-- The parameters of State.reset. DESIGN CHOICE, unsafe (assumption log 2): the example arguments of
spec/95_test_vectors.md for Region A; the spec gives no value. -/
def Params.example : Params :=
  { base := 0, hwLines := 312, bottomInvisible := 12, defaultLine := 250, pollThreshold := 250 }

/-- STEP_CAPACITY (R7). -/
abbrev Config.stepCapacity : Nat := 8

/-- SENTINEL_LINE (R7, R65). -/
abbrev Config.sentinelLine : Line := 0x1FF#9

/-- REGION_THRESHOLD: a measured count above it selects Region A (R7, R118). -/
abbrev Config.regionThreshold : Nat := 300

/-- The drift of one Region B frame in microseconds (R7, R31). -/
abbrev Config.driftPerFrameB : Nat := 667

/-- DRIFT_LIMIT in microseconds (R7). -/
abbrev Config.driftLimit : Nat := 1000

/-- MS_PER_S (R7). -/
abbrev Config.msPerSecond : Nat := 1000

end Sys2Proof
end

