-- ==== Sys2Proof/Syntax.lean ====
section
/-! DEFINITION. The instructions of the RSE: one constructor for each mnemonic of spec/opcode_table.json.

A BUS15 constructor is one host bus transaction (spec/30_encoding.md R62), a CMD16 constructor one command (R63, R64).
The pseudo-instructions of R69 are host code that expands to these and stand in Machine/State.lean as HostOp. -/

namespace Sys2Proof

inductive Instr where
  -- Scanline-compare unit, spec/40_register_access.md section 2
  | rdRasterLo
  | rdRasterHi
  | rdCompareLo
  | wrCompareLo (d : Byte)
  | rdMode
  | wrMode (d : Byte)
  | rdIrqStatus
  | wrIrqStatus (d : Byte)
  | rdIrqEn
  | wrIrqEn (d : Byte)
  -- Command and status registers, section 3
  | rdCmdLo
  | wrCmdLo (d : Byte)
  | rdCmdHi
  | wrCmdHi (d : Byte)
  | rdStatus
  | rdErrCode
  | rdCurIndex
  | rdStepCount
  | rdCbStep
  | rdStepLo (k : StepIndex)
  | rdStepHi (k : StepIndex)
  -- Metrics registers, section 4
  | rdMetricsFlags
  | rdFps
  | rdMspf
  | rdTotalLinesLo
  | rdTotalLinesHi
  | rdMeasuredLo
  | rdMeasuredHi
  -- Frame-clock registers, section 5
  | rdFcLo
  | rdFcHi
  | rdSecLo
  | rdSecHi
  | rdMsLo
  | rdMsHi
  | rdDriftLo
  | rdDriftHi
  -- Reserved and ignored accesses, section 6
  | rdReserved (off : Offset)
  | wrIgnored (off : Offset) (d : Byte)
  -- Commands, spec/41_timing_detector.md, spec/42_scheduler.md, spec/43_frame_clock.md
  | nop
  | detect
  | enable
  | disable
  | addStep (cbv : Bool) (line : Line)
  | setDebug (d : Bool)
  | softWrap
  deriving DecidableEq, Repr

end Sys2Proof
end

