-- ==== Sys2Proof/WellFormed.lean ====
section
/-! DEFINITION. Which instruction terms name an encoding: the two constructors that carry an offset carry one of theirs
(spec/20_memory.md R54, spec/40_register_access.md R109, R110). -/

namespace Sys2Proof

/-- The reserved offsets: 0x06, 0x07, 0x0F, 0x23, 0x28 .. 0x2F, 0x38 .. 0x3F (R54, R109). -/
def reservedOffset (off : Offset) : Bool :=
  let n := off.toNat
  n == 0x06 || n == 0x07 || n == 0x0F || n == 0x23 || (0x28 ≤ n && n ≤ 0x2F) || 0x38 ≤ n

/-- The offsets whose writes are ignored: 0x00, 0x01, 0x06, 0x07, 0x0A .. 0x3F (R110). -/
def ignoredOffset (off : Offset) : Bool :=
  let n := off.toNat
  n == 0x00 || n == 0x01 || n == 0x06 || n == 0x07 || 0x0A ≤ n

/-- The check of one instruction term. -/
def Instr.wf : Instr → Bool
  | .rdReserved off => reservedOffset off
  | .wrIgnored off _ => ignoredOffset off
  | .rdRasterLo | .rdRasterHi | .rdCompareLo | .wrCompareLo _ | .rdMode | .wrMode _ => true
  | .rdIrqStatus | .wrIrqStatus _ | .rdIrqEn | .wrIrqEn _ => true
  | .rdCmdLo | .wrCmdLo _ | .rdCmdHi | .wrCmdHi _ | .rdStatus | .rdErrCode => true
  | .rdCurIndex | .rdStepCount | .rdCbStep | .rdStepLo _ | .rdStepHi _ => true
  | .rdMetricsFlags | .rdFps | .rdMspf => true
  | .rdTotalLinesLo | .rdTotalLinesHi | .rdMeasuredLo | .rdMeasuredHi => true
  | .rdFcLo | .rdFcHi | .rdSecLo | .rdSecHi | .rdMsLo | .rdMsHi | .rdDriftLo | .rdDriftHi => true
  | .nop | .detect | .enable | .disable | .addStep _ _ | .setDebug _ | .softWrap => true

/-- The instruction term names an encoding of the spec. -/
abbrev Instr.WellFormed (i : Instr) : Prop := i.wf = true

end Sys2Proof
end

