-- ==== Sys2Proof/Decode.lean ====
section
/-! DEFINITION. The decoder and the encoder (spec/30_encoding.md).

Every bus transaction is a BUS15 word, and decoding one never fails: the rows of the table partition the 128 pairs
(W, OFF) (R61, R67). A CMD16 word is decoded only when CMD_HI is written; a word that matches no row is reserved and is
rejected by name (R66). -/

namespace Sys2Proof

/-- Why a CMD16 word is reserved (R66). -/
inductive Reserved where
  /-- OP = 0x7 .. 0xF. -/
  | opcode
  /-- A defined OP with reserved ARG bits set. -/
  | argument
  deriving DecidableEq, Repr

/-- An encoded instruction: a bus transaction or a command word (R61). -/
inductive Encoded where
  | bus (w : BusWord)
  | cmd (w : Half)
  deriving DecidableEq, Repr

/-! ### BUS15 -/

/-- W, bit 14: 1 for a write (R62). -/
def busIsWrite (w : BusWord) : Bool := w.getLsbD 14

/-- OFF, bits 13:8 (R62). -/
def busOffset (w : BusWord) : Offset := w.extractLsb' 8 6

/-- DATA, bits 7:0 (R62). -/
def busData (w : BusWord) : Byte := w.extractLsb' 0 8

/-- `{W, OFF, DATA}` (R62). -/
def busWord (write : Bool) (off : Offset) (d : Byte) : BusWord := BitVec.ofBool write ++ off ++ d

/-- K, bits 3:1 of the offset of a STEPk register (R92, R93). -/
def stepOfOffset (off : Offset) : StepIndex := off.extractLsb' 1 3

/-- The read that an offset selects (R43, R67). -/
def decodeRead (off : Offset) : Instr :=
  match off.toNat with
  | 0x00 => .rdRasterLo
  | 0x01 => .rdRasterHi
  | 0x02 => .rdCompareLo
  | 0x03 => .rdMode
  | 0x04 => .rdIrqStatus
  | 0x05 => .rdIrqEn
  | 0x08 => .rdCmdLo
  | 0x09 => .rdCmdHi
  | 0x0A => .rdStatus
  | 0x0B => .rdErrCode
  | 0x0C => .rdCurIndex
  | 0x0D => .rdStepCount
  | 0x0E => .rdCbStep
  | 0x20 => .rdMetricsFlags
  | 0x21 => .rdFps
  | 0x22 => .rdMspf
  | 0x24 => .rdTotalLinesLo
  | 0x25 => .rdTotalLinesHi
  | 0x26 => .rdMeasuredLo
  | 0x27 => .rdMeasuredHi
  | 0x30 => .rdFcLo
  | 0x31 => .rdFcHi
  | 0x32 => .rdSecLo
  | 0x33 => .rdSecHi
  | 0x34 => .rdMsLo
  | 0x35 => .rdMsHi
  | 0x36 => .rdDriftLo
  | 0x37 => .rdDriftHi
  | n =>
    if 0x10 ≤ n ∧ n ≤ 0x1F then
      if off.getLsbD 0 then .rdStepHi (stepOfOffset off) else .rdStepLo (stepOfOffset off)
    else .rdReserved off

/-- The write that an offset selects (R43, R67). -/
def decodeWrite (off : Offset) (d : Byte) : Instr :=
  match off.toNat with
  | 0x02 => .wrCompareLo d
  | 0x03 => .wrMode d
  | 0x04 => .wrIrqStatus d
  | 0x05 => .wrIrqEn d
  | 0x08 => .wrCmdLo d
  | 0x09 => .wrCmdHi d
  | _ => .wrIgnored off d

/-- A bus transaction's instruction. DATA of a read is not looked at (R62, R67; assumption log 23). -/
def decodeBus (w : BusWord) : Instr :=
  if busIsWrite w then decodeWrite (busOffset w) (busData w) else decodeRead (busOffset w)

/-! ### CMD16 -/

/-- OP, bits 15:12 (R63). -/
def cmdOp (w : Half) : BitVec 4 := w.extractLsb' 12 4

/-- ARG, bits 11:0 (R63). -/
def cmdArg (w : Half) : BitVec 12 := w.extractLsb' 0 12

/-- `{OP, ARG}` (R63). -/
def cmdWord (op : BitVec 4) (arg : BitVec 12) : Half := op ++ arg

/-- LINE = ARG[8:0] (R65). -/
def argLine (arg : BitVec 12) : Line := arg.extractLsb' 0 9

/-- CBV = ARG[11] (R65). -/
def argCbv (arg : BitVec 12) : Bool := arg.getLsbD 11

/-- D = ARG[0] (R65). -/
def argDebug (arg : BitVec 12) : Bool := arg.getLsbD 0

/-- `{CBV, 00, LINE}`, ADD_STEP's ARG (R64). -/
def addStepArg (cbv : Bool) (line : Line) : BitVec 12 := BitVec.ofBool cbv ++ 0#2 ++ line

/-- `{00000000000, D}`, SET_DEBUG's ARG (R64). -/
def setDebugArg (d : Bool) : BitVec 12 := 0#11 ++ BitVec.ofBool d

/-- The command, if the reserved ARG bits are 0 (R66). -/
def ifClear (clear : Bool) (i : Instr) : Except Reserved Instr :=
  if clear then .ok i else .error .argument

/-- A command word's instruction, or the reason it is reserved (R64, R66, R67). -/
def decodeCmd (w : Half) : Except Reserved Instr :=
  let arg := cmdArg w
  match (cmdOp w).toNat with
  | 0x0 => ifClear (arg == 0) .nop
  | 0x1 => ifClear (arg == 0) .detect
  | 0x2 => ifClear (arg == 0) .enable
  | 0x3 => ifClear (arg == 0) .disable
  | 0x4 => ifClear (arg.extractLsb' 9 2 == 0) (.addStep (argCbv arg) (argLine arg))
  | 0x5 => ifClear (arg.extractLsb' 1 11 == 0) (.setDebug (argDebug arg))
  | 0x6 => ifClear (arg == 0) .softWrap
  | _ => .error .opcode

/-- Decoding, total on the words of both formats. -/
def decode : Encoded → Except Reserved Instr
  | .bus w => .ok (decodeBus w)
  | .cmd w => decodeCmd w

/-! ### The encoder -/

/-- The encoding of a read: DATA is 0 (R62). -/
def encodeRead (off : Offset) : Encoded := .bus (busWord false off 0)

/-- The encoding of a write (R62). -/
def encodeWrite (off : Offset) (d : Byte) : Encoded := .bus (busWord true off d)

/-- An instruction's word, written from R43, R62, R63 and R64. -/
def encode : Instr → Encoded
  | .rdRasterLo => encodeRead 0x00
  | .rdRasterHi => encodeRead 0x01
  | .rdCompareLo => encodeRead 0x02
  | .wrCompareLo d => encodeWrite 0x02 d
  | .rdMode => encodeRead 0x03
  | .wrMode d => encodeWrite 0x03 d
  | .rdIrqStatus => encodeRead 0x04
  | .wrIrqStatus d => encodeWrite 0x04 d
  | .rdIrqEn => encodeRead 0x05
  | .wrIrqEn d => encodeWrite 0x05 d
  | .rdCmdLo => encodeRead 0x08
  | .wrCmdLo d => encodeWrite 0x08 d
  | .rdCmdHi => encodeRead 0x09
  | .wrCmdHi d => encodeWrite 0x09 d
  | .rdStatus => encodeRead 0x0A
  | .rdErrCode => encodeRead 0x0B
  | .rdCurIndex => encodeRead 0x0C
  | .rdStepCount => encodeRead 0x0D
  | .rdCbStep => encodeRead 0x0E
  | .rdStepLo k => encodeRead (0b01#2 ++ k ++ 0#1)
  | .rdStepHi k => encodeRead (0b01#2 ++ k ++ 1#1)
  | .rdMetricsFlags => encodeRead 0x20
  | .rdFps => encodeRead 0x21
  | .rdMspf => encodeRead 0x22
  | .rdTotalLinesLo => encodeRead 0x24
  | .rdTotalLinesHi => encodeRead 0x25
  | .rdMeasuredLo => encodeRead 0x26
  | .rdMeasuredHi => encodeRead 0x27
  | .rdFcLo => encodeRead 0x30
  | .rdFcHi => encodeRead 0x31
  | .rdSecLo => encodeRead 0x32
  | .rdSecHi => encodeRead 0x33
  | .rdMsLo => encodeRead 0x34
  | .rdMsHi => encodeRead 0x35
  | .rdDriftLo => encodeRead 0x36
  | .rdDriftHi => encodeRead 0x37
  | .rdReserved off => encodeRead off
  | .wrIgnored off d => encodeWrite off d
  | .nop => .cmd (cmdWord 0x0 0)
  | .detect => .cmd (cmdWord 0x1 0)
  | .enable => .cmd (cmdWord 0x2 0)
  | .disable => .cmd (cmdWord 0x3 0)
  | .addStep cbv line => .cmd (cmdWord 0x4 (addStepArg cbv line))
  | .setDebug d => .cmd (cmdWord 0x5 (setDebugArg d))
  | .softWrap => .cmd (cmdWord 0x6 0)

/-! ### The opcode table as data -/

/-- A row of the opcode table: a word belongs to it when its bits under `mask` are `pat`; `names` says which
instructions have the row's mnemonic. -/
structure TableRow (n : Nat) where
  pat : BitVec n
  mask : BitVec n
  names : Instr → Bool

/-- A word belongs to a row (R67). -/
def rowMatches (n : Nat) (r : TableRow n) (w : BitVec n) : Bool := w &&& r.mask == r.pat

/-- The BUS15 rows of spec/opcode_table.json for reads, in its order. -/
def busReadRows : List (TableRow 15) :=
  [⟨0x0000#15, 0x7F00#15, (· matches .rdRasterLo)⟩, ⟨0x0100#15, 0x7F00#15, (· matches .rdRasterHi)⟩,
   ⟨0x0200#15, 0x7F00#15, (· matches .rdCompareLo)⟩, ⟨0x0300#15, 0x7F00#15, (· matches .rdMode)⟩,
   ⟨0x0400#15, 0x7F00#15, (· matches .rdIrqStatus)⟩, ⟨0x0500#15, 0x7F00#15, (· matches .rdIrqEn)⟩,
   ⟨0x0800#15, 0x7F00#15, (· matches .rdCmdLo)⟩, ⟨0x0900#15, 0x7F00#15, (· matches .rdCmdHi)⟩,
   ⟨0x0A00#15, 0x7F00#15, (· matches .rdStatus)⟩, ⟨0x0B00#15, 0x7F00#15, (· matches .rdErrCode)⟩,
   ⟨0x0C00#15, 0x7F00#15, (· matches .rdCurIndex)⟩, ⟨0x0D00#15, 0x7F00#15, (· matches .rdStepCount)⟩,
   ⟨0x0E00#15, 0x7F00#15, (· matches .rdCbStep)⟩, ⟨0x2000#15, 0x7F00#15, (· matches .rdMetricsFlags)⟩,
   ⟨0x2100#15, 0x7F00#15, (· matches .rdFps)⟩, ⟨0x2200#15, 0x7F00#15, (· matches .rdMspf)⟩]
  ++ [⟨0x2400#15, 0x7F00#15, (· matches .rdTotalLinesLo)⟩, ⟨0x2500#15, 0x7F00#15, (· matches .rdTotalLinesHi)⟩,
   ⟨0x2600#15, 0x7F00#15, (· matches .rdMeasuredLo)⟩, ⟨0x2700#15, 0x7F00#15, (· matches .rdMeasuredHi)⟩,
   ⟨0x3000#15, 0x7F00#15, (· matches .rdFcLo)⟩, ⟨0x3100#15, 0x7F00#15, (· matches .rdFcHi)⟩,
   ⟨0x3200#15, 0x7F00#15, (· matches .rdSecLo)⟩, ⟨0x3300#15, 0x7F00#15, (· matches .rdSecHi)⟩,
   ⟨0x3400#15, 0x7F00#15, (· matches .rdMsLo)⟩, ⟨0x3500#15, 0x7F00#15, (· matches .rdMsHi)⟩,
   ⟨0x3600#15, 0x7F00#15, (· matches .rdDriftLo)⟩, ⟨0x3700#15, 0x7F00#15, (· matches .rdDriftHi)⟩,
   ⟨0x1000#15, 0x7100#15, (· matches .rdStepLo _)⟩, ⟨0x1100#15, 0x7100#15, (· matches .rdStepHi _)⟩,
   ⟨0x0600#15, 0x7E00#15, (· matches .rdReserved _)⟩, ⟨0x0F00#15, 0x7F00#15, (· matches .rdReserved _)⟩,
   ⟨0x2300#15, 0x7F00#15, (· matches .rdReserved _)⟩, ⟨0x2800#15, 0x7800#15, (· matches .rdReserved _)⟩,
   ⟨0x3800#15, 0x7800#15, (· matches .rdReserved _)⟩]

/-- The BUS15 rows of spec/opcode_table.json for writes, in its order. -/
def busWriteRows : List (TableRow 15) :=
  [⟨0x4200#15, 0x7F00#15, (· matches .wrCompareLo _)⟩, ⟨0x4300#15, 0x7F00#15, (· matches .wrMode _)⟩,
   ⟨0x4400#15, 0x7F00#15, (· matches .wrIrqStatus _)⟩, ⟨0x4500#15, 0x7F00#15, (· matches .wrIrqEn _)⟩,
   ⟨0x4800#15, 0x7F00#15, (· matches .wrCmdLo _)⟩, ⟨0x4900#15, 0x7F00#15, (· matches .wrCmdHi _)⟩,
   ⟨0x4000#15, 0x7E00#15, (· matches .wrIgnored _ _)⟩, ⟨0x4600#15, 0x7E00#15, (· matches .wrIgnored _ _)⟩,
   ⟨0x4A00#15, 0x7E00#15, (· matches .wrIgnored _ _)⟩, ⟨0x4C00#15, 0x7C00#15, (· matches .wrIgnored _ _)⟩,
   ⟨0x5000#15, 0x7000#15, (· matches .wrIgnored _ _)⟩, ⟨0x6000#15, 0x6000#15, (· matches .wrIgnored _ _)⟩]

/-- The 47 BUS15 rows (R67). -/
def busRows : List (TableRow 15) := busReadRows ++ busWriteRows

/-- The 7 CMD16 rows (R67). -/
def cmdRows : List (TableRow 16) :=
  [⟨0x0000#16, 0xFFFF#16, (· matches .nop)⟩, ⟨0x1000#16, 0xFFFF#16, (· matches .detect)⟩,
   ⟨0x2000#16, 0xFFFF#16, (· matches .enable)⟩, ⟨0x3000#16, 0xFFFF#16, (· matches .disable)⟩,
   ⟨0x4000#16, 0xF600#16, (· matches .addStep _ _)⟩, ⟨0x5000#16, 0xFFFE#16, (· matches .setDebug _)⟩,
   ⟨0x6000#16, 0xFFFF#16, (· matches .softWrap)⟩]

/-- The rows a bus transaction belongs to. -/
def busRowsOf (w : BusWord) : List (TableRow 15) := busRows.filter fun r => rowMatches 15 r w

/-- The rows a command word belongs to. -/
def cmdRowsOf (w : Half) : List (TableRow 16) := cmdRows.filter fun r => rowMatches 16 r w

/-! ### The host's table words -/

/-- A word of the opcode table, numbered as the table numbers it. DESIGN CHOICE, safe (assumption log 9): every word
below 0x8000 is read as the bus transaction it is, since a transaction's format is told by its offset alone (R61); the
words of the CMD16 rows are bus transactions too, and reach the RSE only through CMD_LO and CMD_HI. -/
def encodedOfTableWord (nbits w : Nat) : Encoded :=
  let v := w % 2 ^ nbits
  if v < 2 ^ 15 then .bus (BitVec.ofNat 15 v) else .cmd (BitVec.ofNat 16 v)

/-- The instruction the decoder reads from a word of the opcode table. -/
def decodeTableWord (nbits w : Nat) : Option Instr :=
  (decode (encodedOfTableWord nbits w)).toOption

end Sys2Proof
end

