-- ==== Sys2Proof/Machine/State.lean ====
section
/-! DEFINITION. The state of the RSE and of the host as the spec's protocols see it (spec/10_state.md), as plain data, and
the state after reset (R41, R163). -/

namespace Sys2Proof.Machine

/-! ### The block's units -/

/-- Scanline-compare unit (R17–R21). -/
structure Scu where
  /-- RASTER (R17). -/
  raster : Line
  /-- COMPARE (R18). -/
  compare : Line
  /-- MODE_OTHER, bits 6:0 of MODE (R19). -/
  modeOther : BitVec 7
  /-- RST, the raster interrupt-request latch (R20). -/
  rst : Bool
  /-- IRQ_EN_RST, the raster interrupt enable (R21). -/
  irqEnRst : Bool
  deriving DecidableEq, Repr

/-- SEQ_STATE (R24). -/
inductive SeqState where
  | idle
  | cbWait
  deriving DecidableEq, Repr

/-- One entry of the step table (R27). -/
structure StepEntry where
  /-- LINE: the trigger line, with the sentinel resolved. -/
  line : Line
  /-- CBV: the step has a callback. -/
  cbv : Bool
  deriving DecidableEq, Repr

/-- Step sequencer (R16, R22–R28). -/
structure Sequencer where
  /-- ENABLED (R22). -/
  enabled : Bool
  /-- DEBUG (R23). -/
  debug : Bool
  /-- SEQ_STATE (R24). -/
  seqState : SeqState
  /-- CB_STEP (R25). -/
  cbStep : StepIndex
  /-- CUR_INDEX (R16). -/
  curIndex : StepIndex
  /-- STEP_COUNT (R26). -/
  stepCount : BitVec 4
  /-- STEP[0..7] (R27). -/
  steps : Vector StepEntry 8
  /-- VEC_SLOT (R28). -/
  vecSlot : Bool
  deriving DecidableEq, Repr

/-- The sticky error state (R29). -/
structure ErrorState where
  /-- ERR. -/
  flag : Bool
  /-- ERR_CODE. -/
  code : Byte
  deriving DecidableEq, Repr

/-- Timing detector (R30). -/
structure Detector where
  /-- DETECTING. -/
  detecting : Bool
  /-- DET_PREV. -/
  prev : Line
  deriving DecidableEq, Repr

/-- The metrics fields (R31). -/
structure Metrics where
  /-- METRICS_VALID. -/
  valid : Bool
  /-- REGION_A. -/
  regionA : Bool
  /-- FPS. -/
  fps : Byte
  /-- MSPF. -/
  mspf : Byte
  /-- TOTAL_LINES. -/
  totalLines : Half
  /-- MEASURED. -/
  measured : Half
  deriving DecidableEq, Repr

/-- Frame clock (R32). -/
structure FrameClock where
  /-- FRAME_COUNTER. -/
  frameCounter : Half
  /-- ELAPSED_SECONDS. -/
  seconds : Half
  /-- ELAPSED_MILLIS. -/
  millis : Half
  /-- DRIFT_ACC. -/
  drift : Half
  deriving DecidableEq, Repr

/-- The hold latches of the 16-bit fields and of RASTER (R33). -/
structure HoldLatches where
  /-- HOLD_RASTER. -/
  raster : Bool
  /-- HOLD_TOTAL. -/
  total : Byte
  /-- HOLD_MEAS. -/
  meas : Byte
  /-- HOLD_FC. -/
  fc : Byte
  /-- HOLD_SEC. -/
  sec : Byte
  /-- HOLD_MS. -/
  ms : Byte
  /-- HOLD_DRIFT. -/
  drift : Byte
  deriving DecidableEq, Repr

/-! ### Errors and the observation trace -/

/-- The BlockErrors of R147. -/
inductive BlockError where
  /-- 0x01: a command that needs the timing metrics ran before a detection completed. -/
  | metricsInvalid
  /-- 0x02: a reserved command word. -/
  | badCommand
  deriving DecidableEq, Repr

/-- The two external acknowledge strobes (R38). -/
inductive Strobe where
  | a
  | b
  deriving DecidableEq, Repr

/-- The events of the observation trace (R39). -/
inductive Event where
  /-- Match(line). -/
  | matched (line : Line)
  /-- Fire(k), with none for ⊥. -/
  | fire (k : Option StepIndex)
  /-- Wrap(fc). -/
  | wrap (fc : Half)
  /-- CbRequest(k). -/
  | cbRequest (k : StepIndex)
  /-- CbRun(k). -/
  | cbRun (k : StepIndex)
  /-- CbDone(k). -/
  | cbDone (k : StepIndex)
  /-- SelfAck. -/
  | selfAck
  /-- ExtAck(A), ExtAck(B). -/
  | extAck (p : Strobe)
  /-- Error(code). -/
  | error (e : BlockError)
  deriving DecidableEq, Repr

/-! ### The host -/

/-- The operations a host program is made of: the bus transactions, the host steps of R151–R154, and the
pseudo-instructions and routines of R69, R111, R112, R144 and R152, each in the stages that its transactions cut it
into. A register NAME is given by its offset (R68). DESIGN CHOICE, safe: host code is a list of these (log 6). -/
inductive HostOp where
  /-- One bus read at a host address (R42, R71). -/
  | read (addr : Nat)
  /-- One bus write at a host address (R42, R72). -/
  | write (addr : Nat) (d : Byte)
  /-- `mask` (R154). -/
  | mask
  /-- `unmask` (R154). -/
  | unmask
  /-- `masked?` (R154). -/
  | isMasked
  /-- `rti` (R153). -/
  | rti
  /-- The platform or host code sets ROM_DISABLED (R35). -/
  | setRomDisabled (v : Bool)
  /-- The dispatcher's `emit CbRun(i)` and `call HOST_CB[i]`, i being the byte just read from CB_STEP (R152, R154). -/
  | runCallback
  /-- `cmd w` (R69). -/
  | cmd (w : Half)
  /-- `setbit NAME, b, e` (R111). -/
  | setbit (off : Offset) (b : Nat) (e : Bool)
  /-- `getbit NAME, b` (R112). -/
  | getbit (off : Offset) (b : Nat)
  /-- `rd16 F`, F given by the offset of its LO byte (R69). -/
  | rd16 (off : Offset)
  /-- The HI read of `rd16`, with the LO byte read. -/
  | rd16Hi (off : Offset) (lo : Byte)
  /-- `rdraster` (R69). -/
  | rdRaster
  /-- The HI read of `rdraster`, with the LO byte read. -/
  | rdRasterHi (lo : Byte)
  /-- `setcompare L` (R69). -/
  | setCompare (l : Line)
  /-- `waitframe` (R144). -/
  | waitFrame
  /-- `waitframe`, enabled branch: FC_LO of the poll. -/
  | waitPoll
  /-- `waitframe`, enabled branch: FC_HI of the poll, with FC_LO read. -/
  | waitPollHi (lo : Byte)
  /-- `waitframe`, disabled branch, first loop: RASTER_LO. -/
  | waitBelow
  /-- First loop: RASTER_HI, with RASTER_LO read. -/
  | waitBelowHi (lo : Byte)
  /-- `waitframe`, disabled branch, second loop: RASTER_LO. -/
  | waitAbove
  /-- Second loop: RASTER_HI, with RASTER_LO read. -/
  | waitAboveHi (lo : Byte)
  /-- `waitframe`, disabled branch, after `softwrap`: FC_LO. -/
  | waitRecord
  /-- After `softwrap`: FC_HI, with FC_LO read. -/
  | waitRecordHi (lo : Byte)
  deriving DecidableEq, Repr

/-- A host routine: HOST_CB[k] or HOST_RAW (R151, R152). The spec takes any host code (U21); DESIGN CHOICE: a routine is
what its calls run, call by call, so that a routine that acts on what it reads (as the save and restore of CMD_LO of R166
and D43 does) is, in each finite run, the operations its calls made in that run (log 6). -/
structure HostRoutine where
  /-- What its next calls run, the next call's first. -/
  calls : List (List HostOp)
  /-- What every call after those runs. -/
  later : List HostOp
  deriving DecidableEq, Repr

/-- One of the host's two execution contexts: what it still has to run, and the results its operations yielded. -/
structure HostThread where
  /-- The operations still to run, next first. -/
  ops : List HostOp
  /-- The byte the last bus read returned (R71). -/
  data : Byte
  /-- The value the last `rd16` or `rdraster` yielded (R69). -/
  value : Half
  /-- The bit the last `getbit` or `masked?` yielded (R112, R154). -/
  bit : Bool
  deriving DecidableEq, Repr

/-- The host's current context (R14). -/
inductive Context where
  | mainline
  | interrupt
  deriving DecidableEq, Repr

/-- The host-side state the spec's protocols use (R14, R35). -/
structure HostSide where
  /-- HOST_I: 1 = masked. -/
  hostI : Bool
  /-- The current context. -/
  context : Context
  /-- The mainline thread: while the interrupt context runs, the saved mainline context (R151, R153). -/
  main : HostThread
  /-- The interrupt thread. -/
  intr : HostThread
  /-- What mainline runs over and over once its thread has nothing left: the main loop of the boot flow, which ends in
  `goto main` (R164). Nothing when it is empty. DESIGN CHOICE: host code is lists (log 6). -/
  mainLoop : List HostOp
  /-- LAST_FRAME, the frame-wait variable (R144). -/
  lastFrame : Half
  /-- HOST_CB[0..7], the callback routines (R152). DESIGN CHOICE: as HostRoutine says (log 6). -/
  hostCb : Vector HostRoutine 8
  /-- HOST_RAW, the raw-mode handler (R151). DESIGN CHOICE: as HostRoutine says (log 6). -/
  hostRaw : HostRoutine
  /-- ROM_DISABLED, driven by the platform (R35). -/
  romDisabled : Bool
  deriving DecidableEq, Repr

/-- Who takes the next step (R11). DESIGN CHOICE, safe: the order is plain data of the state (log 5). -/
inductive Turn where
  /-- A beam step (R123). -/
  | beam
  /-- The host's next operation in its current context. -/
  | host
  /-- An interrupt entry (R151). -/
  | entry
  deriving DecidableEq, Repr

/-! ### The state -/

structure State where
  /-- The parameters of R8; no step writes them (log 1). -/
  params : Params
  scu : Scu
  seq : Sequencer
  err : ErrorState
  det : Detector
  metrics : Metrics
  clock : FrameClock
  hold : HoldLatches
  /-- CMD_LO (R34). -/
  cmdLo : Byte
  /-- The observation trace, oldest event first (R39). -/
  trace : List Event
  host : HostSide
  /-- Who takes the next steps, the next first (R11, log 5). -/
  turns : List Turn
  /-- Who takes the steps after those, over and over; the beam alone when it is empty. A run in which it names every agent
  is weakly fair (R178; log 5, 17). -/
  recurring : List Turn
  deriving DecidableEq, Repr

/-! ### How a step can stop -/

/-- The ModelFaults of R149: host protocol violations. No instruction raises one; the host's own steps do. -/
inductive Fault where
  /-- Raised by `setbit` and `getbit` with a bit index above 7 (R111, R112, R149). Safe. -/
  | bitIndexOutOfRange
  /-- Raised by an interrupt entry while ENABLED = 1 and ROM_DISABLED ≠ VEC_SLOT (R149, R151). Safe. -/
  | vecSlotMismatch
  /-- Raised by `unmask` in interrupt context (R149, R154). Safe. -/
  | nestedInterrupt
  deriving DecidableEq, Repr

/-- What the model gives no meaning to. -/
inductive Refusal where
  /-- Raised by an arm of exec whose instruction has no meaning yet. Safe. -/
  | notModelled (mnemonic : String)
  /-- ParamOutOfRange (R8, R149): raised by every step of a configuration that breaks a constraint of R8. Safe. -/
  | paramOutOfRange
  /-- Raised by a host bus access outside the RSE's window: another device's, whose behaviour the spec does not give
  (R42, R55, R159; log 10). Safe. -/
  | outsideWindow
  /-- Raised by `rti` and by the dispatcher's callback call in mainline context, where the spec gives them no effect
  (R153, R154; log 12). Safe. -/
  | interruptOpInMainline
  deriving DecidableEq, Repr

/-! ### Reset -/

/-- A host thread with nothing to run. DESIGN CHOICE, unsafe: the zero results (log 4). -/
def HostThread.start : HostThread := { ops := [], data := 0, value := 0, bit := false }

/-- A host routine that does nothing. -/
def HostRoutine.empty : HostRoutine := { calls := [], later := [] }

/-- The state after reset for any configuration, any draw of RASTER and MODE_OTHER, and any host code (R41, R163). DESIGN
CHOICE, safe: the agents take turns, the beam first (log 5). -/
def State.resetWith (p : Params) (raster : Line) (modeOther : BitVec 7) (romDisabled : Bool)
    (hostCb : Vector HostRoutine 8) (hostRaw : HostRoutine) (boot mainLoop : List HostOp) : State :=
  { params := p
    scu := { raster := raster, compare := 0, modeOther := modeOther, rst := false, irqEnRst := false }
    seq :=
      { enabled := false, debug := false, seqState := .idle, cbStep := 0, curIndex := 0, stepCount := 0,
        steps := Vector.replicate 8 { line := 0, cbv := false }, vecSlot := false }
    err := { flag := false, code := 0 }
    det := { detecting := false, prev := 0 }
    metrics := { valid := false, regionA := false, fps := 0, mspf := 0, totalLines := 0, measured := 0 }
    clock := { frameCounter := 0, seconds := 0, millis := 0, drift := 0 }
    hold := { raster := false, total := 0, meas := 0, fc := 0, sec := 0, ms := 0, drift := 0 }
    cmdLo := 0
    trace := []
    host :=
      { hostI := true, context := .mainline, main := { HostThread.start with ops := boot },
        intr := HostThread.start, mainLoop := mainLoop, lastFrame := 0, hostCb := hostCb, hostRaw := hostRaw,
        romDisabled := romDisabled }
    turns := []
    recurring := [.beam, .host, .entry] }

/-- The machine right after reset. DESIGN CHOICE, unsafe: the parameters (log 2), the two draws (log 3) and the host
side's routines and ROM_DISABLED (log 4); every other value is R41's or R163's. -/
def State.reset : State :=
  State.resetWith Params.example 0 0 false (Vector.replicate 8 .empty) .empty [] []

end Sys2Proof.Machine
end

