-- ==== Sys2Proof/Machine/Operands.lean ====
section
/-! DEFINITION. The byte views of the registers and the operands of the commands: how a field is laid out in the bytes of
the window (spec/20_memory.md R43–R49) and how ADD_STEP's line is assembled (spec/30_encoding.md R65). -/

namespace Sys2Proof.Machine

/-- `{0000000, b}`: a register with one defined bit, bit 0 (R46, R48). -/
def bitByte (b : Bool) : Byte := 0#7 ++ BitVec.ofBool b

/-- Bits 7:0 of a 16-bit field (R49). -/
def lowByte (v : Half) : Byte := v.extractLsb' 0 8

/-- Bits 15:8 of a 16-bit field (R49). -/
def highByte (v : Half) : Byte := v.extractLsb' 8 8

/-- Bits 7:0 of a 9-bit line (R49). -/
def lineLow (l : Line) : Byte := l.extractLsb' 0 8

/-- Bit 8 of a 9-bit line (R49). -/
def lineHigh (l : Line) : Bool := l.getLsbD 8

/-- `{l[8], d}`: the line with a new low byte (R76). -/
def withLineLow (l : Line) (d : Byte) : Line := BitVec.ofBool (lineHigh l) ++ d

/-- `{b, l[7:0]}`: the line with a new bit 8 (R78). -/
def withLineHigh (l : Line) (b : Bool) : Line := BitVec.ofBool b ++ lineLow l

/-- The MODE register: `{COMPARE[8], MODE_OTHER}` (R45, R77). -/
def modeByte (c : Scu) : Byte := BitVec.ofBool (lineHigh c.compare) ++ c.modeOther

/-- Bit 7 of a byte written to MODE: COMPARE[8] (R45, R78). -/
def modeLineHigh (d : Byte) : Bool := d.getLsbD 7

/-- Bits 6:0 of a byte written to MODE: MODE_OTHER (R45, R78). -/
def modeRest (d : Byte) : BitVec 7 := d.extractLsb' 0 7

/-- Bit 0 of a written byte: the defined bit of IRQ_STATUS and of IRQ_EN (R46). -/
def lowBit (d : Byte) : Bool := d.getLsbD 0

/-- A step index or CUR_INDEX, zero-extended to a byte (R89, R91). -/
def indexByte (k : StepIndex) : Byte := k.setWidth 8

/-- STEP_COUNT, zero-extended to a byte (R90). -/
def countByte (n : BitVec 4) : Byte := n.setWidth 8

/-- STEPk_HI: `{CBV, 000000, LINE[8]}` (R47, R93). -/
def stepHighByte (e : StepEntry) : Byte := BitVec.ofBool e.cbv ++ 0#6 ++ BitVec.ofBool (lineHigh e.line)

/-- Entry k of the step table (R27). -/
def State.stepAt (s : State) (k : StepIndex) : StepEntry :=
  s.seq.steps[k.toNat]'(by have := k.isLt; omega)

/-- The CMD16 word a write of CMD_HI executes: `{d, CMD_LO}` (R63, R86). -/
def State.commandWord (s : State) (d : Byte) : Half := d ++ s.cmdLo

/-- The line a sentinel step resolves to: TOTAL_LINES − P_BOTTOM_INVISIBLE (R65, R133). Narrowed to 9 bits, which loses
nothing once the metrics are valid and the parameters meet R8 (log 14). -/
def State.endOfFrameLine (s : State) : Line :=
  BitVec.ofNat 9 (s.metrics.totalLines.toNat - s.params.bottomInvisible)

/-- The line ENABLE arms: STEP[0].LINE, or P_DEFAULT_LINE when no step is configured (R131). -/
def State.firstLine (s : State) : Line :=
  if s.seq.stepCount = 0 then BitVec.ofNat 9 s.params.defaultLine else (s.stepAt 0).line

end Sys2Proof.Machine
end

