-- ==== Sys2Proof/Machine/Flags.lean ====
section
/-! DEFINITION. The flags and outputs the RSE computes from its state: STATUS, firePending, IRQ_OUT and DBG_FLAG. -/

namespace Sys2Proof.Machine

/-- SEQ_STATE = CB_WAIT: a callback request is outstanding (R24). -/
def State.callbackPending (s : State) : Bool := s.seq.seqState == .cbWait

/-- STATUS: `{0, VEC_SLOT, ERR, METRICS_VALID, DETECTING, CB_PEND, DEBUG, ENABLED}` (R44, R87). -/
def State.statusByte (s : State) : Byte :=
  0#1 ++ BitVec.ofBool s.seq.vecSlot ++ BitVec.ofBool s.err.flag ++ BitVec.ofBool s.metrics.valid
    ++ BitVec.ofBool s.det.detecting ++ BitVec.ofBool s.callbackPending ++ BitVec.ofBool s.seq.debug
    ++ BitVec.ofBool s.seq.enabled

/-- firePending (R124). -/
def State.firePending (s : State) : Bool :=
  s.seq.enabled && s.scu.irqEnRst && s.scu.rst && s.seq.seqState == .idle && !s.det.detecting

/-- IRQ_OUT (R36). DEDUCED, safe: a function of the state, so that it is recomputed after every step (log 8). -/
def State.irqOut (s : State) : Bool :=
  if s.det.detecting then false
  else if s.seq.enabled then s.callbackPending
  else s.scu.irqEnRst && s.scu.rst

/-- DBG_FLAG (R37). DEDUCED, safe (log 8). -/
def State.dbgFlag (s : State) : Bool := s.seq.debug && s.callbackPending

end Sys2Proof.Machine
end

