-- ==== Sys2Proof/Machine/Ops.lean ====
section
/-! DEFINITION. The shared operations of the RSE: the trace, the command error, WRAP, SEQ_FIRE and the settle tail of
every step, and the host's interrupt entry and return. -/

namespace Sys2Proof.Machine

/-- What a step answers. -/
abbrev Result := Host.Outcome State Fault Refusal

/-! ### The trace and the host's threads -/

/-- `emit E`: append an event to the trace (R10, R39). -/
def State.emit (s : State) (e : Event) : State := { s with trace := s.trace ++ [e] }

/-- The thread of the current context (R14). -/
def State.thread (s : State) : HostThread :=
  match s.host.context with
  | .mainline => s.host.main
  | .interrupt => s.host.intr

/-- Change the thread of the current context. -/
def State.mapThread (s : State) (f : HostThread → HostThread) : State :=
  match s.host.context with
  | .mainline => { s with host := { s.host with main := f s.host.main } }
  | .interrupt => { s with host := { s.host with intr := f s.host.intr } }

/-- The byte a read returns to the host (R71). -/
def State.returnByte (s : State) (d : Byte) : State := s.mapThread fun t => { t with data := d }

/-! ### Command errors -/

/-- The code of a BlockError (R147). -/
def BlockError.code : BlockError → Byte
  | .metricsInvalid => 0x01
  | .badCommand => 0x02

/-- `raise BlockError(code)` (R146): sticky, the first code is kept, the trace keeps every error. -/
def State.raiseError (s : State) (e : BlockError) : State :=
  { s with
    err := { flag := true, code := if s.err.flag then s.err.code else e.code }
    trace := s.trace ++ [.error e] }

/-! ### WRAP -/

/-- The drift of one frame in microseconds: DRIFT_PER_FRAME (R31). -/
def Metrics.driftPerFrame (m : Metrics) : Nat := if m.regionA then 0 else Config.driftPerFrameB

/-- WRAP makes the +1 ms correction: in Region B, when the accumulator reaches DRIFT_LIMIT (R139). -/
def FrameClock.corrects (c : FrameClock) (m : Metrics) : Bool :=
  !m.regionA && decide (Config.driftLimit ≤ c.drift.toNat + m.driftPerFrame)

/-- The milliseconds after the addition and the correction, before the roll into seconds (R139). -/
def FrameClock.millisSum (c : FrameClock) (m : Metrics) : Nat :=
  c.millis.toNat + m.mspf.toNat + (if c.corrects m then 1 else 0)

/-- The drift accumulator after the addition and the correction (R139). -/
def FrameClock.driftSum (c : FrameClock) (m : Metrics) : Nat :=
  c.drift.toNat + m.driftPerFrame - (if c.corrects m then Config.driftLimit else 0)

/-- WRAP's new clock fields (R139). The sums are exact and narrowed to 16 bits at the end, which loses nothing in a
state that meets R40 (log 14). -/
def FrameClock.wrapped (c : FrameClock) (m : Metrics) : FrameClock :=
  let rolls := Config.msPerSecond ≤ c.millisSum m
  { frameCounter := c.frameCounter + 1
    seconds := if rolls then c.seconds + 1 else c.seconds
    millis := BitVec.ofNat 16 (if rolls then c.millisSum m - Config.msPerSecond else c.millisSum m)
    drift := BitVec.ofNat 16 (c.driftSum m) }

/-- WRAP (R139). -/
def State.wrap (s : State) : State :=
  ({ s with clock := s.clock.wrapped s.metrics }).emit (.wrap (s.clock.wrapped s.metrics).frameCounter)

/-! ### SEQ_FIRE and the settle -/

/-- A callback request for step k: CB_STEP, CB_WAIT, CbRequest(k); RST stays 1 (R127, R128). -/
def State.requestCallback (s : State) (k : StepIndex) : State :=
  ({ s with seq := { s.seq with cbStep := k, seqState := .cbWait } }).emit (.cbRequest k)

/-- The sequencer's own acknowledge: RST <- 0, SelfAck (R127, R128). -/
def State.selfAck (s : State) : State :=
  ({ s with scu := { s.scu with rst := false } }).emit .selfAck

/-- FIRE_SINGLE, for STEP_COUNT < 2. COMPARE is not reprogrammed (R127; where R40 item 8 says otherwise, see log 24). -/
def State.fireSingle (s : State) : State :=
  if s.seq.stepCount = 1 then
    let w := (s.emit (.fire (some 0))).wrap
    if (s.stepAt 0).cbv then w.requestCallback 0 else w.selfAck
  else ((s.emit (.fire none)).wrap).selfAck

/-- The index after CUR_INDEX: `(CUR_INDEX + 1) mod STEP_COUNT` (R128). -/
def State.nextIndex (s : State) : StepIndex :=
  BitVec.ofNat 3 ((s.seq.curIndex.toNat + 1) % s.seq.stepCount.toNat)

/-- The re-arm of FIRE_MULTI: CUR_INDEX and COMPARE go to the next step (R128). -/
def State.rearm (s : State) : State :=
  { s with
    seq := { s.seq with curIndex := s.nextIndex }
    scu := { s.scu with compare := (s.stepAt s.nextIndex).line } }

/-- FIRE_MULTI, for STEP_COUNT ≥ 2: re-arm, WRAP when the index returns to 0, then the fired step's callback (R128). -/
def State.fireMulti (s : State) : State :=
  let fired := s.seq.curIndex
  let armed := (s.emit (.fire (some fired))).rearm
  let wrapped := if s.nextIndex = 0 then armed.wrap else armed
  if (s.stepAt fired).cbv then wrapped.requestCallback fired else wrapped.selfAck

/-- SEQ_FIRE (R126). -/
def State.seqFire (s : State) : State :=
  if s.seq.stepCount.toNat < 2 then s.fireSingle else s.fireMulti

/-- SETTLE, the tail of every transaction and of every beam step (R125). -/
def State.settle (s : State) : State := if s.firePending then s.seqFire else s

/-- The end of a write transaction or a command: the settle; the outputs are functions of the state (R72). -/
def State.finish (s : State) : Result := .next s.settle

/-- The end of a read transaction: the settle, and the byte returned to the host (R71). -/
def State.answer (s : State) (d : Byte) : Result := .next (s.returnByte d).settle

/-! ### Interrupt entry and return -/

/-- The dispatcher: read CB_STEP, run the callback, acknowledge, return (R152). -/
def dispatchOps (p : Params) : List HostOp :=
  [.read (p.base + 0x0E), .runCallback, .write (p.base + 0x04) 0x01, .rti]

/-- What the next call of a routine runs (log 6). -/
def HostRoutine.body (r : HostRoutine) : List HostOp :=
  match r.calls with
  | [] => r.later
  | ops :: _ => ops

/-- A routine after a call (log 6). -/
def HostRoutine.called (r : HostRoutine) : HostRoutine := { r with calls := r.calls.tail }

/-- What the handler in the live vector slot runs: the dispatcher while the scheduler is enabled, else HOST_RAW, which
ends with rti (R151, D45). -/
def State.handlerOps (s : State) : List HostOp :=
  if s.seq.enabled then dispatchOps s.params else s.host.hostRaw.body ++ [.rti]

/-- An interrupt entry is possible: IRQ_OUT = 1, HOST_I = 0, mainline (R151). -/
def State.entryEnabled (s : State) : Bool :=
  s.irqOut && !s.host.hostI && s.host.context == .mainline

/-- Interrupt entry (R151). The mainline thread is kept as it is: it is the saved mainline context (log 13). -/
def State.takeInterrupt (s : State) : Result :=
  if s.seq.enabled && s.host.romDisabled != s.seq.vecSlot then .fault .vecSlotMismatch
  else
    .next
      { s with
        host :=
          { s.host with
            hostI := true
            context := .interrupt
            intr := { s.host.intr with ops := s.handlerOps }
            hostRaw := if s.seq.enabled then s.host.hostRaw else s.host.hostRaw.called } }

/-- `rti` (R153): back to the saved mainline context, HOST_I <- 0. Outside an interrupt the spec gives it no effect
(log 12). -/
def State.returnFromInterrupt (s : State) : Result :=
  match s.host.context with
  | .mainline => .refused .interruptOpInMainline
  | .interrupt =>
    .next
      { s with
        host :=
          { s.host with
            hostI := false
            context := .mainline
            intr := { s.host.intr with ops := [] } } }

end Sys2Proof.Machine
end

