-- ==== Sys2Proof/Machine/TimingDetector.lean ====
section
/-! DEFINITION. The timing detector (spec/41_timing_detector.md): the DETECT command, the sample and the
classification. -/

namespace Sys2Proof.Machine

/-- DETECT's effect: ignored once the metrics are valid or while a measurement runs (R113). -/
def State.runDetect (s : State) : State :=
  if s.metrics.valid || s.det.detecting then s
  else { s with det := { detecting := true, prev := s.scu.raster } }

/-- `DETECT` (R113). -/
def execDetect (s : State) : Result := s.runDetect.finish

/-- CLASSIFY(m), with MEASURED = m and METRICS_VALID = 1 (R114, R118). -/
def classified (m : Half) : Metrics :=
  if Config.regionThreshold < m.toNat then
    { valid := true, regionA := true, fps := 50, mspf := 20, totalLines := 312, measured := m }
  else { valid := true, regionA := false, fps := 60, mspf := 16, totalLines := 262, measured := m }

/-- The count a rollover measures: `zext_16(DET_PREV) + 1` (R114). -/
def measuredCount (prev : Line) : Half := prev.setWidth 16 + 1

/-- DET_SAMPLE, the third part of a beam step (R114). -/
def State.detSample (s : State) : State :=
  if s.det.detecting then
    if s.scu.raster.toNat < s.det.prev.toNat then
      { s with metrics := classified (measuredCount s.det.prev), det := { s.det with detecting := false } }
    else { s with det := { s.det with prev := s.scu.raster } }
  else s

end Sys2Proof.Machine
end

