-- ==== Sys2Proof/Machine/Beam.lean ====
section
/-! DEFINITION. The beam step (spec/42_scheduler.md R123): raster advance, compare match, detector sample, settle. -/

namespace Sys2Proof.Machine

/-- RASTER <- (RASTER + 1) mod P_HW_LINES (R123). -/
def State.advanceRaster (s : State) : State :=
  { s with scu := { s.scu with raster := BitVec.ofNat 9 ((s.scu.raster.toNat + 1) % s.params.hwLines) } }

/-- The compare test, made only when RASTER takes a new value (R123). -/
def State.compareMatch (s : State) : State :=
  if s.scu.raster = s.scu.compare then
    ({ s with scu := { s.scu with rst := true } }).emit (.matched s.scu.raster)
  else s

/-- A beam step (R123). -/
def State.beamStep (s : State) : State := s.advanceRaster.compareMatch.detSample.settle

end Sys2Proof.Machine
end

