-- ==== Sys2Proof/Machine/ClockRegisters.lean ====
section
/-! DEFINITION. The frame-clock registers (spec/40_register_access.md section 5, R101–R108). -/

namespace Sys2Proof.Machine

/-- `rd FC_LO` (R101). -/
def execRdFcLo (s : State) : Result :=
  ({ s with hold := { s.hold with fc := highByte s.clock.frameCounter } }).answer (lowByte s.clock.frameCounter)

/-- `rd FC_HI` (R102). -/
def execRdFcHi (s : State) : Result := s.answer s.hold.fc

/-- `rd SEC_LO` (R103). -/
def execRdSecLo (s : State) : Result :=
  ({ s with hold := { s.hold with sec := highByte s.clock.seconds } }).answer (lowByte s.clock.seconds)

/-- `rd SEC_HI` (R104). -/
def execRdSecHi (s : State) : Result := s.answer s.hold.sec

/-- `rd MS_LO` (R105). -/
def execRdMsLo (s : State) : Result :=
  ({ s with hold := { s.hold with ms := highByte s.clock.millis } }).answer (lowByte s.clock.millis)

/-- `rd MS_HI` (R106). -/
def execRdMsHi (s : State) : Result := s.answer s.hold.ms

/-- `rd DRIFT_LO` (R107). -/
def execRdDriftLo (s : State) : Result :=
  ({ s with hold := { s.hold with drift := highByte s.clock.drift } }).answer (lowByte s.clock.drift)

/-- `rd DRIFT_HI` (R108). -/
def execRdDriftHi (s : State) : Result := s.answer s.hold.drift

end Sys2Proof.Machine
end

