-- ==== Sys2Proof/Machine/Scheduler.lean ====
section
/-! DEFINITION. The scheduler's commands (spec/42_scheduler.md section 4). The reserved-ARG check that opens every command
rule is the decoder's (R66, R148): a command with reserved bits set is no instruction but a reserved word. -/

namespace Sys2Proof.Machine

/-- NOP's effect: none (R130). -/
def State.runNop (s : State) : State := s

/-- `NOP` (R130). -/
def execNop (s : State) : Result := s.runNop.finish

/-- ENABLE's effect (R131). -/
def State.runEnable (s : State) : State :=
  if s.metrics.valid then
    let acked := (s.emit (.extAck .a)).emit (.extAck .b)
    { acked with
      scu := { s.scu with rst := false, compare := s.firstLine, irqEnRst := true }
      seq := { s.seq with seqState := .idle, curIndex := 0, vecSlot := s.host.romDisabled, enabled := true } }
  else s.raiseError .metricsInvalid

/-- `ENABLE` (R131). -/
def execEnable (s : State) : Result := s.runEnable.finish

/-- DISABLE's effect (R132). -/
def State.runDisable (s : State) : State :=
  { s with
    seq := { s.seq with enabled := false, seqState := .idle }
    scu := { s.scu with irqEnRst := false } }

/-- `DISABLE` (R132). -/
def execDisable (s : State) : Result := s.runDisable.finish

/-- The line an ADD_STEP asks for, or none while its sentinel cannot be resolved (R133). -/
def State.requestedLine (s : State) (line : Line) : Option Line :=
  if line = Config.sentinelLine then
    if s.metrics.valid then some s.endOfFrameLine else none
  else some line

/-- Append an entry to the step table, and arm it if it is the first while enabled (R133). -/
def State.appendStep (s : State) (e : StepEntry) (h : s.seq.stepCount.toNat < 8) : State :=
  { s with
    seq := { s.seq with steps := s.seq.steps.set s.seq.stepCount.toNat e h, stepCount := s.seq.stepCount + 1 }
    scu :=
      { s.scu with compare := if s.seq.stepCount = 0 ∧ s.seq.enabled = true then e.line else s.scu.compare } }

/-- ADD_STEP's effect: silently capped at 8 steps, then the sentinel's check (R133, R148). A STEP_COUNT above 8, which no
run reaches (R40), is capped too (log 14). Only the first step arms COMPARE, so the second leaves it as it is, even where
the host wrote it (R133; log 24). -/
def State.runAddStep (s : State) (cbv : Bool) (line : Line) : State :=
  if h : s.seq.stepCount.toNat < 8 then
    match s.requestedLine line with
    | some l => s.appendStep { line := l, cbv := cbv } h
    | none => s.raiseError .metricsInvalid
  else s

/-- `ADD_STEP` (R133). -/
def execAddStep (cbv : Bool) (line : Line) (s : State) : Result := (s.runAddStep cbv line).finish

/-- SET_DEBUG's effect (R134). -/
def State.runSetDebug (s : State) (d : Bool) : State := { s with seq := { s.seq with debug := d } }

/-- `SET_DEBUG` (R134). -/
def execSetDebug (d : Bool) (s : State) : Result := (s.runSetDebug d).finish

/-- A reserved command word's effect (R135). -/
def State.runReserved (s : State) : State := s.raiseError .badCommand

end Sys2Proof.Machine
end

