-- ==== Sys2Proof/Machine/SoftWrap.lean ====
section
/-! DEFINITION. The SOFT_WRAP command (spec/43_frame_clock.md section 2). -/

namespace Sys2Proof.Machine

/-- SOFT_WRAP's effect: ignored while enabled, then the metrics check, then WRAP (R143). -/
def State.runSoftWrap (s : State) : State :=
  if s.seq.enabled then s
  else if s.metrics.valid then s.wrap
  else s.raiseError .metricsInvalid

/-- `SOFT_WRAP` (R143). -/
def execSoftWrap (s : State) : Result := s.runSoftWrap.finish

end Sys2Proof.Machine
end

