-- ==== Sys2Proof/Machine/CommandStatus.lean ====
section
/-! DEFINITION. The command and status registers (spec/40_register_access.md section 3, R83–R93). -/

namespace Sys2Proof.Machine

/-- `rd CMD_LO` (R83). -/
def execRdCmdLo (s : State) : Result := s.answer s.cmdLo

/-- `wr CMD_LO, #d` (R84). -/
def execWrCmdLo (d : Byte) (s : State) : Result := ({ s with cmdLo := d }).finish

/-- `rd CMD_HI` reads 0x00 (R85). -/
def execRdCmdHi (s : State) : Result := s.answer 0x00

/-- The effect of the command a CMD16 row names (R86). The bus transactions are no commands: decodeCmd never answers
one, and for them the rule is that of a word with no row (R135). -/
def State.runCommand (s : State) : Instr → State
  | .nop => s.runNop
  | .detect => s.runDetect
  | .enable => s.runEnable
  | .disable => s.runDisable
  | .addStep cbv line => s.runAddStep cbv line
  | .setDebug d => s.runSetDebug d
  | .softWrap => s.runSoftWrap
  | .rdRasterLo | .rdRasterHi | .rdCompareLo | .wrCompareLo _ | .rdMode | .wrMode _ | .rdIrqStatus
  | .wrIrqStatus _ | .rdIrqEn | .wrIrqEn _ | .rdCmdLo | .wrCmdLo _ | .rdCmdHi | .wrCmdHi _ | .rdStatus
  | .rdErrCode | .rdCurIndex | .rdStepCount | .rdCbStep | .rdStepLo _ | .rdStepHi _ | .rdMetricsFlags
  | .rdFps | .rdMspf | .rdTotalLinesLo | .rdTotalLinesHi | .rdMeasuredLo | .rdMeasuredHi | .rdFcLo | .rdFcHi
  | .rdSecLo | .rdSecHi | .rdMsLo | .rdMsHi | .rdDriftLo | .rdDriftHi | .rdReserved _ | .wrIgnored _ _ =>
    s.runReserved

/-- The effect of a command word (R86, R135). -/
def State.runWord (s : State) (w : Half) : State :=
  match decodeCmd w with
  | .ok i => s.runCommand i
  | .error _ => s.runReserved

/-- `wr CMD_HI, #d` executes the command word `{d, CMD_LO}` (R86). -/
def execWrCmdHi (d : Byte) (s : State) : Result := (s.runWord (s.commandWord d)).finish

/-- `rd STATUS` (R87). -/
def execRdStatus (s : State) : Result := s.answer s.statusByte

/-- `rd ERR_CODE` (R88). -/
def execRdErrCode (s : State) : Result := s.answer s.err.code

/-- `rd CUR_INDEX` (R89). -/
def execRdCurIndex (s : State) : Result := s.answer (indexByte s.seq.curIndex)

/-- `rd STEP_COUNT` (R90). -/
def execRdStepCount (s : State) : Result := s.answer (countByte s.seq.stepCount)

/-- `rd CB_STEP` (R91). -/
def execRdCbStep (s : State) : Result := s.answer (indexByte s.seq.cbStep)

/-- `rd STEPk_LO` (R92). -/
def execRdStepLo (k : StepIndex) (s : State) : Result := s.answer (lineLow (s.stepAt k).line)

/-- `rd STEPk_HI` (R93). -/
def execRdStepHi (k : StepIndex) (s : State) : Result := s.answer (stepHighByte (s.stepAt k))

end Sys2Proof.Machine
end

