-- ==== Sys2Proof/Machine/MetricsRegisters.lean ====
section
/-! DEFINITION. The metrics registers (spec/40_register_access.md section 4, R94–R100). -/

namespace Sys2Proof.Machine

/-- `rd METRICS_FLAGS` (R94). -/
def execRdMetricsFlags (s : State) : Result := s.answer (bitByte s.metrics.regionA)

/-- `rd FPS` (R95). -/
def execRdFps (s : State) : Result := s.answer s.metrics.fps

/-- `rd MSPF` (R96). -/
def execRdMspf (s : State) : Result := s.answer s.metrics.mspf

/-- `rd TOTAL_LINES_LO` (R97). -/
def execRdTotalLinesLo (s : State) : Result :=
  ({ s with hold := { s.hold with total := highByte s.metrics.totalLines } }).answer (lowByte s.metrics.totalLines)

/-- `rd TOTAL_LINES_HI` (R98). -/
def execRdTotalLinesHi (s : State) : Result := s.answer s.hold.total

/-- `rd MEASURED_LO` (R99). -/
def execRdMeasuredLo (s : State) : Result :=
  ({ s with hold := { s.hold with meas := highByte s.metrics.measured } }).answer (lowByte s.metrics.measured)

/-- `rd MEASURED_HI` (R100). -/
def execRdMeasuredHi (s : State) : Result := s.answer s.hold.meas

end Sys2Proof.Machine
end

