-- ==== Sys2Proof/Machine/ReservedAccess.lean ====
section
/-! DEFINITION. Reads of reserved offsets and writes that are ignored (spec/40_register_access.md section 6). -/

namespace Sys2Proof.Machine

/-- `rd` of a reserved offset reads 0x00 (R109). -/
def execRdReserved (_off : Offset) (s : State) : Result := s.answer 0x00

/-- `wr` of a read-only or reserved offset has no effect of its own; the settle runs (R110). -/
def execWrIgnored (_off : Offset) (_d : Byte) (s : State) : Result := s.finish

end Sys2Proof.Machine
end

