-- ==== Sys2Proof/Machine/ScanlineCompare.lean ====
section
/-! DEFINITION. The scanline-compare unit's registers (spec/40_register_access.md section 2, R73–R82). -/

namespace Sys2Proof.Machine

/-- `rd RASTER_LO` (R73). -/
def execRdRasterLo (s : State) : Result :=
  ({ s with hold := { s.hold with raster := lineHigh s.scu.raster } }).answer (lineLow s.scu.raster)

/-- `rd RASTER_HI` (R74). -/
def execRdRasterHi (s : State) : Result := s.answer (bitByte s.hold.raster)

/-- `rd COMPARE_LO` (R75). -/
def execRdCompareLo (s : State) : Result := s.answer (lineLow s.scu.compare)

/-- `wr COMPARE_LO, #d` (R76). -/
def execWrCompareLo (d : Byte) (s : State) : Result :=
  ({ s with scu := { s.scu with compare := withLineLow s.scu.compare d } }).finish

/-- `rd MODE` (R77). -/
def execRdMode (s : State) : Result := s.answer (modeByte s.scu)

/-- `wr MODE, #d` (R78). -/
def execWrMode (d : Byte) (s : State) : Result :=
  ({ s with
      scu := { s.scu with compare := withLineHigh s.scu.compare (modeLineHigh d), modeOther := modeRest d } }).finish

/-- `rd IRQ_STATUS` (R79). -/
def execRdIrqStatus (s : State) : Result := s.answer (bitByte s.scu.rst)

/-- The acknowledge's effect: RST <- 0, and the end of an outstanding callback request (R80). -/
def State.acknowledge (s : State) : State :=
  let cleared := { s with scu := { s.scu with rst := false } }
  match s.seq.seqState with
  | .idle => cleared
  | .cbWait => ({ cleared with seq := { s.seq with seqState := .idle } }).emit (.cbDone s.seq.cbStep)

/-- `wr IRQ_STATUS, #d` (R80). -/
def execWrIrqStatus (d : Byte) (s : State) : Result :=
  (if lowBit d then s.acknowledge else s).finish

/-- `rd IRQ_EN` (R81). -/
def execRdIrqEn (s : State) : Result := s.answer (bitByte s.scu.irqEnRst)

/-- `wr IRQ_EN, #d` (R82). -/
def execWrIrqEn (d : Byte) (s : State) : Result :=
  ({ s with scu := { s.scu with irqEnRst := lowBit d } }).finish

end Sys2Proof.Machine
end

