-- ==== Sys2Proof/Machine/Dispatch.lean ====
section
/-! DEFINITION. One arm per instruction: a bus transaction with its settle (spec/40_register_access.md R71, R72), or a
command as the CMD_HI write that executes it carries it out (R86). -/

namespace Sys2Proof.Machine

def exec (i : Instr) (s : State) : Host.Outcome State Fault Refusal :=
  match i with
  | .rdRasterLo => Sys2Proof.Machine.execRdRasterLo s
  | .rdRasterHi => Sys2Proof.Machine.execRdRasterHi s
  | .rdCompareLo => Sys2Proof.Machine.execRdCompareLo s
  | .wrCompareLo d => Sys2Proof.Machine.execWrCompareLo d s
  | .rdMode => Sys2Proof.Machine.execRdMode s
  | .wrMode d => Sys2Proof.Machine.execWrMode d s
  | .rdIrqStatus => Sys2Proof.Machine.execRdIrqStatus s
  | .wrIrqStatus d => Sys2Proof.Machine.execWrIrqStatus d s
  | .rdIrqEn => Sys2Proof.Machine.execRdIrqEn s
  | .wrIrqEn d => Sys2Proof.Machine.execWrIrqEn d s
  | .rdCmdLo => Sys2Proof.Machine.execRdCmdLo s
  | .wrCmdLo d => Sys2Proof.Machine.execWrCmdLo d s
  | .rdCmdHi => Sys2Proof.Machine.execRdCmdHi s
  | .wrCmdHi d => Sys2Proof.Machine.execWrCmdHi d s
  | .rdStatus => Sys2Proof.Machine.execRdStatus s
  | .rdErrCode => Sys2Proof.Machine.execRdErrCode s
  | .rdCurIndex => Sys2Proof.Machine.execRdCurIndex s
  | .rdStepCount => Sys2Proof.Machine.execRdStepCount s
  | .rdCbStep => Sys2Proof.Machine.execRdCbStep s
  | .rdStepLo k => Sys2Proof.Machine.execRdStepLo k s
  | .rdStepHi k => Sys2Proof.Machine.execRdStepHi k s
  | .rdMetricsFlags => Sys2Proof.Machine.execRdMetricsFlags s
  | .rdFps => Sys2Proof.Machine.execRdFps s
  | .rdMspf => Sys2Proof.Machine.execRdMspf s
  | .rdTotalLinesLo => Sys2Proof.Machine.execRdTotalLinesLo s
  | .rdTotalLinesHi => Sys2Proof.Machine.execRdTotalLinesHi s
  | .rdMeasuredLo => Sys2Proof.Machine.execRdMeasuredLo s
  | .rdMeasuredHi => Sys2Proof.Machine.execRdMeasuredHi s
  | .rdFcLo => Sys2Proof.Machine.execRdFcLo s
  | .rdFcHi => Sys2Proof.Machine.execRdFcHi s
  | .rdSecLo => Sys2Proof.Machine.execRdSecLo s
  | .rdSecHi => Sys2Proof.Machine.execRdSecHi s
  | .rdMsLo => Sys2Proof.Machine.execRdMsLo s
  | .rdMsHi => Sys2Proof.Machine.execRdMsHi s
  | .rdDriftLo => Sys2Proof.Machine.execRdDriftLo s
  | .rdDriftHi => Sys2Proof.Machine.execRdDriftHi s
  | .rdReserved off => Sys2Proof.Machine.execRdReserved off s
  | .wrIgnored off d => Sys2Proof.Machine.execWrIgnored off d s
  | .nop => Sys2Proof.Machine.execNop s
  | .detect => Sys2Proof.Machine.execDetect s
  | .enable => Sys2Proof.Machine.execEnable s
  | .disable => Sys2Proof.Machine.execDisable s
  | .addStep cbv line => Sys2Proof.Machine.execAddStep cbv line s
  | .setDebug d => Sys2Proof.Machine.execSetDebug d s
  | .softWrap => Sys2Proof.Machine.execSoftWrap s

end Sys2Proof.Machine
end

