-- ==== Sys2Proof/Machine/HostProtocol.lean ====
section
/-! DEFINITION. The host's steps: one bus transaction each at most (spec/00_scope.md R11), the pseudo-instructions and
routines of R69, R111, R112, R144 and R152 cut at their transactions, the host operations of R154, and whose turn it is. -/

namespace Sys2Proof.Machine

/-! ### Bus transactions at host addresses -/

/-- What the host bus carries: a direction, an address and, for a write, a data byte (R62). -/
structure BusCycle where
  write : Bool
  addr : Nat
  data : Byte
  deriving DecidableEq, Repr

/-- The address is in the window P_BASE .. P_BASE + 0x3F (R42). -/
def BusCycle.inWindow (c : BusCycle) (p : Params) : Bool := p.base ≤ c.addr && c.addr < p.base + 64

/-- The BUS15 word of a cycle in the window: `off = addr − P_BASE` (R42, R62). -/
def BusCycle.word (c : BusCycle) (p : Params) : BusWord :=
  busWord c.write (BitVec.ofNat 6 (c.addr - p.base)) c.data

/-- A read of the register at an offset: `MemRead(off, 1)` (R10). -/
def regRead (p : Params) (off : Offset) : BusCycle := { write := false, addr := p.base + off.toNat, data := 0 }

/-- A write of the register at an offset: `MemWrite(off, 1, d)` (R10). -/
def regWrite (p : Params) (off : Offset) (d : Byte) : BusCycle :=
  { write := true, addr := p.base + off.toNat, data := d }

/-- One host bus transaction (R71, R72). An address outside the window is another device's (log 10). -/
def State.transact (s : State) (c : BusCycle) : Result :=
  if c.inWindow s.params then exec (decodeBus (c.word s.params)) s else .refused .outsideWindow

/-- Apply host-side code after a step that went on. -/
def thenHost (r : Result) (f : State → State) : Result :=
  match r with
  | .next t => .next (f t)
  | .fault e => .fault e
  | .refused e => .refused e

/-! ### Host operations -/

/-- Put operations before those the current thread still has to run. -/
def State.pushOps (s : State) (ops : List HostOp) : State :=
  s.mapThread fun t => { t with ops := ops ++ t.ops }

/-- The value a `rd16` or `rdraster` yields (R69). -/
def State.yieldValue (s : State) (v : Half) : State := s.mapThread fun t => { t with value := v }

/-- The bit a `getbit` or `masked?` yields (R112, R154). -/
def State.yieldBit (s : State) (b : Bool) : State := s.mapThread fun t => { t with bit := b }

/-- LAST_FRAME <- f (R144). -/
def State.setLastFrame (s : State) (f : Half) : State := { s with host := { s.host with lastFrame := f } }

/-- The byte `setbit` writes back: `v OR 2^b` or `v AND (0xFF − 2^b)` (R111). -/
def bitSet (v : Byte) (b : Nat) (e : Bool) : Byte :=
  if e then v ||| BitVec.ofNat 8 (2 ^ b) else v &&& BitVec.ofNat 8 (0xFF - 2 ^ b)

/-- The raster line that `rdraster` yields: `{hi[0], lo}` (R69). -/
def rasterOf (hi lo : Byte) : Line := BitVec.ofBool (lowBit hi) ++ lo

/-- The ModelFault an operation raises before any transaction: a bit index above 7 (R111, R112). -/
def HostOp.check : HostOp → Option Fault
  | .setbit _ b _ | .getbit _ b => if 7 < b then some .bitIndexOutOfRange else none
  | .read _ | .write _ _ | .mask | .unmask | .isMasked | .rti | .setRomDisabled _ | .runCallback | .cmd _
  | .rd16 _ | .rd16Hi _ _ | .rdRaster | .rdRasterHi _ | .setCompare _ | .waitFrame | .waitPoll | .waitPollHi _
  | .waitBelow | .waitBelowHi _ | .waitAbove | .waitAboveHi _ | .waitRecord | .waitRecordHi _ => none

/-- The bus transaction of an operation's step; none for the host's own steps (R69, R111, R112, R144). -/
def HostOp.cycle (p : Params) : HostOp → Option BusCycle
  | .read addr => some { write := false, addr := addr, data := 0 }
  | .write addr d => some { write := true, addr := addr, data := d }
  | .mask | .unmask | .isMasked | .rti | .setRomDisabled _ | .runCallback => none
  | .cmd w => some (regWrite p 0x08 (lowByte w))
  | .setbit off _ _ => some (regRead p off)
  | .getbit off _ => some (regRead p off)
  | .rd16 off => some (regRead p off)
  | .rd16Hi off _ => some (regRead p (off + 1))
  | .rdRaster => some (regRead p 0x00)
  | .rdRasterHi _ => some (regRead p 0x01)
  | .setCompare l => some (regWrite p 0x02 (lineLow l))
  | .waitFrame => some (regRead p 0x0A)
  | .waitPoll => some (regRead p 0x30)
  | .waitPollHi _ => some (regRead p 0x31)
  | .waitBelow => some (regRead p 0x00)
  | .waitBelowHi _ => some (regRead p 0x01)
  | .waitAbove => some (regRead p 0x00)
  | .waitAboveHi _ => some (regRead p 0x01)
  | .waitRecord => some (regRead p 0x30)
  | .waitRecordHi _ => some (regRead p 0x31)

/-- One poll of `waitframe`'s enabled branch: record a frame counter that differs, or poll again (R144). -/
def State.pollFrame (s : State) (f : Half) : State :=
  if f = s.host.lastFrame then s.pushOps [.waitPoll] else s.setLastFrame f

/-- `waitframe`'s first loop: until the raster is below the threshold (R144). -/
def State.pollBelow (s : State) (r : Line) : State :=
  if r.toNat < s.params.pollThreshold then s.pushOps [.waitAbove] else s.pushOps [.waitBelow]

/-- `waitframe`'s second loop: until the raster has reached the threshold, then `softwrap` (R144). -/
def State.pollAbove (s : State) (r : Line) : State :=
  if s.params.pollThreshold ≤ r.toNat then s.pushOps [.cmd 0x6000, .waitRecord] else s.pushOps [.waitAbove]

/-- The host's own computation after an operation's transaction, in the same step (log 19). -/
def HostOp.after (op : HostOp) (s : State) : State :=
  let d := s.thread.data
  match op with
  | .read _ | .write _ _ => s
  | .mask | .unmask | .isMasked | .rti | .setRomDisabled _ | .runCallback => s
  | .cmd w => s.pushOps [.write (s.params.base + 0x09) (highByte w)]
  | .setbit off b e => s.pushOps [.write (s.params.base + off.toNat) (bitSet d b e)]
  | .getbit _ b => s.yieldBit (d.getLsbD b)
  | .rd16 off => s.pushOps [.rd16Hi off d]
  | .rd16Hi _ lo => s.yieldValue (d ++ lo)
  | .rdRaster => s.pushOps [.rdRasterHi d]
  | .rdRasterHi lo => s.yieldValue ((rasterOf d lo).setWidth 16)
  | .setCompare l => s.pushOps [.setbit 0x03 7 (lineHigh l)]
  | .waitFrame => if lowBit d then s.pushOps [.waitPoll] else s.pushOps [.waitBelow]
  | .waitPoll => s.pushOps [.waitPollHi d]
  | .waitPollHi lo => s.pollFrame (d ++ lo)
  | .waitBelow => s.pushOps [.waitBelowHi d]
  | .waitBelowHi lo => s.pollBelow (rasterOf d lo)
  | .waitAbove => s.pushOps [.waitAboveHi d]
  | .waitAboveHi lo => s.pollAbove (rasterOf d lo)
  | .waitRecord => s.pushOps [.waitRecordHi d]
  | .waitRecordHi lo => s.setLastFrame (d ++ lo)

/-- HOST_I <- v (R154). -/
def State.setHostI (s : State) (v : Bool) : State := { s with host := { s.host with hostI := v } }

/-- `unmask`: a ModelFault in interrupt context (R154). -/
def State.unmask (s : State) : Result :=
  match s.host.context with
  | .mainline => .next (s.setHostI false)
  | .interrupt => .fault .nestedInterrupt

/-- HOST_CB[i] (R152). -/
def State.callback (s : State) (i : StepIndex) : HostRoutine :=
  s.host.hostCb[i.toNat]'(by have := i.isLt; omega)

/-- HOST_CB[i] after a call: its next call runs what stands next in the routine (log 6). -/
def State.countCall (s : State) (i : StepIndex) : State :=
  { s with
    host := { s.host with
      hostCb := s.host.hostCb.set i.toNat (s.callback i).called (by have := i.isLt; omega) } }

/-- The dispatcher's `emit CbRun(i)` and `call HOST_CB[i]`, in interrupt context (R152, R154; log 12, 13). DESIGN CHOICE:
what a callback does is the list its routine holds for this call (log 6). -/
def State.callCallback (s : State) : Result :=
  match s.host.context with
  | .mainline => .refused .interruptOpInMainline
  | .interrupt =>
    let i : StepIndex := s.thread.data.extractLsb' 0 3
    .next (((s.emit (.cbRun i)).countCall i).pushOps (s.callback i).body)

/-- ROM_DISABLED <- v (R35). -/
def State.setRom (s : State) (v : Bool) : State := { s with host := { s.host with romDisabled := v } }

/-- The host's own steps, which make no transaction (R35, R153, R154). Every other operation has a cycle and is never
run here. -/
def State.runLocal (s : State) (op : HostOp) : Result :=
  match op with
  | .mask => .next (s.setHostI true)
  | .unmask => s.unmask
  | .isMasked => .next (s.yieldBit s.host.hostI)
  | .rti => s.returnFromInterrupt
  | .setRomDisabled v => .next (s.setRom v)
  | .runCallback => s.callCallback
  | .read _ | .write _ _ | .cmd _ | .setbit _ _ _ | .getbit _ _ | .rd16 _ | .rd16Hi _ _ | .rdRaster
  | .rdRasterHi _ | .setCompare _ | .waitFrame | .waitPoll | .waitPollHi _ | .waitBelow | .waitBelowHi _
  | .waitAbove | .waitAboveHi _ | .waitRecord | .waitRecordHi _ => .next s

/-- One step of a host operation. -/
def State.runHostOp (s : State) (op : HostOp) : Result :=
  match op.check with
  | some f => .fault f
  | none =>
    match op.cycle s.params with
    | some c => thenHost (s.transact c) op.after
    | none => s.runLocal op

/-- The current thread's next operation is taken off its list. -/
def State.dropOp (s : State) : State := s.mapThread fun t => { t with ops := t.ops.tail }

/-- `goto main`: mainline with nothing left to run begins its main loop again (R164; log 6). -/
def State.gotoMain (s : State) : State :=
  match s.host.context, s.host.main.ops with
  | .mainline, [] => s.mapThread fun t => { t with ops := s.host.mainLoop }
  | .mainline, _ :: _ => s
  | .interrupt, _ => s

/-- The host's turn: its next operation in the current context; nothing when it has none (log 5). -/
def State.hostTurn (s : State) : Result :=
  match s.gotoMain.thread.ops with
  | [] => .next s
  | op :: _ => s.gotoMain.dropOp.runHostOp op

/-- One agent's turn. An entry that is not possible does not happen (R151; log 5). -/
def State.agentTurn (s : State) : Turn → Result
  | .beam => .next s.beamStep
  | .host => s.hostTurn
  | .entry => if s.entryEnabled then s.takeInterrupt else .next s

/-- The turns to take from here: the listed ones, and the recurring ones once those are used up (R178; log 5). -/
def State.nextTurns (s : State) : List Turn :=
  match s.turns with
  | [] => s.recurring
  | t :: ts => t :: ts

/-- The next turn, taken off the list; the beam's when no turn is given (R11, R178; log 5). -/
def State.takeTurn (s : State) : Result :=
  match s.nextTurns with
  | [] => .next s.beamStep
  | t :: ts => ({ s with turns := ts }).agentTurn t

/-! ### Placing an instruction -/

/-- The host operation that makes a bus transaction (R62, R68). -/
def busOp (p : Params) (w : BusWord) : HostOp :=
  if busIsWrite w then .write (p.base + (busOffset w).toNat) (busData w)
  else .read (p.base + (busOffset w).toNat)

/-- The host operation that issues an instruction: a transaction, or `cmd w` (R69). -/
def hostOpOf (p : Params) (i : Instr) : HostOp :=
  match encode i with
  | .bus w => busOp p w
  | .cmd w => .cmd w

/-- The state whose next step runs an encoded instruction: the host's turn, with the transaction as the current thread's
next operation; a word above 0x7FFF, which is no transaction, is staged in CMD_LO and written to CMD_HI (log 7). -/
def State.placeWord (s : State) (e : Encoded) : State :=
  match e with
  | .bus w => ({ s with turns := .host :: s.turns }).pushOps [busOp s.params w]
  | .cmd w =>
    ({ s with turns := .host :: s.turns, cmdLo := lowByte w }).pushOps
      [.write (s.params.base + 0x09) (highByte w)]

end Sys2Proof.Machine
end

