-- ==== Sys2Proof/Machine/Step.lean ====
section
/-! DEFINITION. One step of the machine: the next turn of the interleaving (spec/00_scope.md R11), in a configuration that
meets the constraints of R8. -/

namespace Sys2Proof.Machine

/-- One atomic step (R11). A configuration outside R8's constraints is refused before the first step (R8, R149). -/
def step (s : State) : Host.Outcome State Fault Refusal :=
  if s.params.Valid then s.takeTurn else .refused .paramOutOfRange

/-- `s` with a word of the opcode table placed so that the very next step runs it (log 7, log 9). -/
def State.withFetchWord (s : State) (nbits w : Nat) : State := s.placeWord (encodedOfTableWord nbits w)

end Sys2Proof.Machine
end

