-- ==== Sys2Proof/Safety.lean ====
section
/-! DEFINITION. The terms the claims are stated in: the invariants of spec/10_state.md R40, runs of beam steps and of
transactions, and what the host and the block share. No step uses anything of this file. -/

namespace Sys2Proof.Machine

/-- No fire is pending: what R125 says of every state between steps. -/
abbrev State.Quiet (s : State) : Prop := s.firePending = false

/-- The metrics before a detection completes: all 0 (R31, R48). -/
def Metrics.zero : Metrics :=
  { valid := false, regionA := false, fps := 0, mspf := 0, totalLines := 0, measured := 0 }

/-- The frame clock at reset: all 0 (R32). -/
def FrameClock.zero : FrameClock := { frameCounter := 0, seconds := 0, millis := 0, drift := 0 }

/-- The two sets of values valid metrics can hold (R40 item 6). -/
abbrev Metrics.Known (m : Metrics) : Prop :=
  (m.regionA = true ∧ m.totalLines = 312 ∧ m.fps = 50 ∧ m.mspf = 20)
    ∨ (m.regionA = false ∧ m.totalLines = 262 ∧ m.fps = 60 ∧ m.mspf = 16)

/-- The invariant of the machine: items 1 to 7 of R40, R125's "no state exists in which a fire is pending between
steps", and what makes them inductive (the parameters' constraints, the zero metrics and clock before a detection, the
mask in interrupt context). Item 8 is State.Armed. -/
structure State.Inv (s : State) : Prop where
  /-- R8. -/
  params_valid : s.params.Valid
  /-- R40 item 1. -/
  stepCount_le : s.seq.stepCount.toNat ≤ 8
  /-- R40 item 1. -/
  curIndex_lt : s.seq.curIndex.toNat < max s.seq.stepCount.toNat 1
  /-- R40 item 2. -/
  cbWait_served : s.seq.seqState = .cbWait → s.seq.enabled = true ∧ s.scu.rst = true
  /-- R40 item 3. -/
  detecting_alone : s.det.detecting = true → s.metrics.valid = false ∧ s.seq.enabled = false
  /-- R40 item 4. -/
  enabled_valid : s.seq.enabled = true → s.metrics.valid = true
  /-- R40 item 5. -/
  millis_le : s.clock.millis.toNat ≤ 999
  /-- R40 item 5. -/
  drift_le : s.clock.drift.toNat ≤ 999
  /-- R40 item 5. -/
  regionA_drift : s.metrics.regionA = true → s.clock.drift = 0
  /-- R40 item 6. -/
  metrics_known : s.metrics.valid = true → s.metrics.Known
  /-- R40 item 7. -/
  raster_lt : s.scu.raster.toNat < s.params.hwLines
  /-- R125. -/
  quiet : s.Quiet
  /-- R31, R48, R139: before a detection the metrics and the clock still have their reset values. -/
  unmeasured : s.metrics.valid = false → s.metrics = Metrics.zero ∧ s.clock = FrameClock.zero
  /-- R151, R154: interrupt context runs masked. -/
  interrupt_masked : s.host.context = .interrupt → s.host.hostI = true

/-- R40 item 8, with the two lines ENABLE and ADD_STEP arm when fewer than two steps are configured (R131, R133): while
enabled, COMPARE holds the current step's line, or P_DEFAULT_LINE when there is no step. DESIGN CHOICE: item 8 takes any
SEQ_FIRE to restore this after a host write of COMPARE_LO or MODE; the model follows R127 and R133, by which FIRE_SINGLE
does not re-arm and an ADD_STEP after it makes two steps with COMPARE still the host's (log 24). -/
def State.Armed (s : State) : Prop :=
  s.seq.enabled = true →
    s.scu.compare =
      if s.seq.stepCount = 0 then BitVec.ofNat 9 s.params.defaultLine else (s.stepAt s.seq.curIndex).line

/-- The RSE's own state is the same in both (R151, R153, R154: "changes no RSE state"). -/
structure State.SameBlock (s t : State) : Prop where
  params : t.params = s.params
  scu : t.scu = s.scu
  seq : t.seq = s.seq
  err : t.err = s.err
  det : t.det = s.det
  metrics : t.metrics = s.metrics
  clock : t.clock = s.clock
  hold : t.hold = s.hold
  cmdLo : t.cmdLo = s.cmdLo

/-- `n` beam steps. -/
def State.beamSteps (s : State) : Nat → State
  | 0 => s
  | n + 1 => (s.beamSteps n).beamStep

/-- `k` WRAPs of a clock under fixed metrics. -/
def FrameClock.wrapTimes (c : FrameClock) (m : Metrics) : Nat → FrameClock
  | 0 => c
  | k + 1 => (c.wrapTimes m k).wrapped m

/-- One step of the block: a beam step, or a transaction or command. -/
def State.blockStep (s : State) : Option Instr → State
  | none => s.beamStep
  | some i =>
    match exec i s with
    | .next t => t
    | .fault _ => s
    | .refused _ => s

/-- A run of the block: any order of beam steps and transactions (R11). -/
def State.blockRun (s : State) : List (Option Instr) → State
  | [] => s
  | o :: os => (s.blockStep o).blockRun os

/-- The Fire events of a trace (R39). -/
def fires (tr : List Event) : List (Option StepIndex) :=
  tr.filterMap fun e =>
    match e with
    | .fire k => some k
    | .matched _ | .wrap _ | .cbRequest _ | .cbRun _ | .cbDone _ | .selfAck | .extAck _ | .error _ => none

/-- `s` with another DEBUG bit (R134). -/
def State.withDebug (s : State) (b : Bool) : State := { s with seq := { s.seq with debug := b } }

/-- `s` with other MODE_OTHER bits (R19). -/
def State.withModeOther (s : State) (m : BitVec 7) : State := { s with scu := { s.scu with modeOther := m } }

/-- `n` host turns in a row; none if one of them stops. -/
def State.hostTurns (s : State) : Nat → Option State
  | 0 => some s
  | n + 1 =>
    match s.hostTurns n with
    | none => none
    | some t =>
      match t.hostTurn with
      | .next u => some u
      | .fault _ => none
      | .refused _ => none

/-- A LO read followed, after any run that does not read the same LO byte, by the HI read gives one value that the field
held at the LO read (R50). -/
def ReadsConsistently (lo hi : Instr) (value : State → Nat) : Prop :=
  ∀ (s : State) (os : List (Option Instr)), some lo ∉ os →
    ∃ t u, exec lo s = .next t ∧ exec hi (t.blockRun os) = .next u
      ∧ t.thread.data.toNat + 256 * u.thread.data.toNat = value s

/-- The state after a BlockError (R146): ERR = 1, the first code kept, the event appended, nothing else. -/
def State.afterError (s : State) (e : BlockError) (code : Byte) : State :=
  { s with
    err := { flag := true, code := if s.err.flag = true then s.err.code else code }
    trace := s.trace ++ [.error e] }

/-! ### Infinite runs and fairness (R178) -/

/-- Who takes the next step. -/
def State.mover (s : State) : Turn :=
  match s.nextTurns with
  | [] => .beam
  | t :: _ => t

/-- The agent has a step: the beam always, the host while it has an operation to run, an entry as R151 says. -/
def State.ready (s : State) : Turn → Bool
  | .beam => true
  | .host => !s.gotoMain.thread.ops.isEmpty
  | .entry => s.entryEnabled

/-- An infinite run of the step function: who moves is what the state's own turns say. -/
def StepRun (r : Nat → State) : Prop := ∀ n, step (r n) = .next (r (n + 1))

/-- A routine whose listed calls are made may go on in any way (U21): its next calls may be any. -/
def HostRoutine.GoesOn (q q' : HostRoutine) : Prop := q.calls ≠ [] → q' = q

/-- The same state with host code that goes on: where mainline has nothing left to run, a handler nothing before its
acknowledge or its `rti`, or a routine no call listed, the host program continues in any way (R14, U16, U21; log 6). Nothing
else differs. -/
structure State.GoesOn (s u : State) : Prop where
  /-- What mainline still has to run, it runs. -/
  main : s.host.main.ops ≠ [] → u.host.main.ops = s.host.main.ops
  /-- A callback or HOST_RAW that has run its operations may run more: it need not end (U16). -/
  intr : u.host.intr.ops = s.host.intr.ops
    ∨ ((s.host.intr.ops = [.write (s.params.base + 0x04) 0x01, .rti] ∨ s.host.intr.ops = [.rti])
      ∧ ∃ more, u.host.intr.ops = more ++ s.host.intr.ops)
  callback : ∀ k, (s.callback k).GoesOn (u.callback k)
  raw : s.host.hostRaw.GoesOn u.host.hostRaw
  /-- Only the host's code differs. -/
  rest : u = { s with
    host := { s.host with
      main := { s.host.main with ops := u.host.main.ops }
      intr := { s.host.intr with ops := u.host.intr.ops }
      mainLoop := u.host.mainLoop
      hostCb := u.host.hostCb
      hostRaw := u.host.hostRaw } }

/-- An infinite run of any agents in any order and of any host program (R11, R178: "every run is admitted"): `σ n` takes
step `n`, and the host's code goes on without end, whatever it does. -/
def ScheduledRun (σ : Nat → Turn) (r : Nat → State) : Prop :=
  ∀ n, ∃ u, (r n).GoesOn u ∧ step ({ u with turns := [σ n] } : State) = .next (r (n + 1))

/-- R178: an agent that has a step from some point on, always, takes one after that point. The beam always has one, so it
takes infinitely many; the host takes one while it has one; an entry comes while IRQ_OUT = 1 and HOST_I = 0. -/
def WeaklyFair (σ : Nat → Turn) (r : Nat → State) : Prop :=
  ∀ (a : Turn) (n : Nat), (∀ m, n ≤ m → (r m).ready a = true) → ∃ m, n ≤ m ∧ σ m = a

/-- Executing a command word raises BAD_COMMAND and does nothing else (R66, R135): a write of its high byte to CMD_HI while
its low byte is staged leaves the state with that error. -/
def RaisesBadCommand (w : Half) : Prop :=
  ∀ s : State, s.Quiet → s.cmdLo = lowByte w → exec (.wrCmdHi (highByte w)) s = .next (s.afterError .badCommand 0x02)

end Sys2Proof.Machine
end

