-- ==== Sys2Proof/Certificates/Slice0/Obligations.lean ====
section
/-! DEFINITION. The statements for the provers, from the numbered rules of spec/.

`s.Quiet` (no fire is pending) holds of every state between steps (R125): NoFireIsPendingBetweenSteps states that. -/

open Sys2Proof Sys2Proof.Machine

/-! ### Encoding -/

/-- 30_encoding.md: no bit of an instruction is lost by its encoding. -/
def Obligations.DecodeOfEncodeIsIdentity : Prop :=
  ∀ i : Instr, i.WellFormed → decode (encode i) = .ok i

/-- 30_encoding.md: no bit of a word is lost by decoding, DATA of a read apart, which is 0 in the encoding (R62). -/
def Obligations.EncodeOfDecodeKeepsEveryBit : Prop :=
  (∀ (w : Half) (i : Instr), decodeCmd w = .ok i → encode i = .cmd w)
    ∧ (∀ w : BusWord, busIsWrite w = true → encode (decodeBus w) = .bus w)
    ∧ (∀ w : BusWord, busIsWrite w = false → encode (decodeBus w) = .bus (busWord false (busOffset w) 0))

/-- R67: the BUS15 rows partition the transactions, DATA is not part of a match, a command word matches at most one
CMD16 row, and one that matches none is reserved; the decoder's instruction has the row's mnemonic. -/
def Obligations.WordsMatchTheRowsOfTheTable : Prop :=
  (∀ w : BusWord, ∃ r, busRowsOf w = [r] ∧ r.names (decodeBus w) = true)
    ∧ (∀ r ∈ busRows, r.mask &&& 0xFF#15 = 0#15)
    ∧ (∀ w : Half,
        (∃ i r, decodeCmd w = .ok i ∧ cmdRowsOf w = [r] ∧ r.names i = true)
          ∨ (∃ e, decodeCmd w = .error e ∧ cmdRowsOf w = []))

/-- R66: which command words are reserved, what executing one does, and that a transaction to a reserved offset, or a write
to a read-only register, is no error. -/
def Obligations.ReservedEncodingsAreThoseListed : Prop :=
  (∀ w : Half,
    ((∃ e, decodeCmd w = .error e) ↔
      7 ≤ w.toNat / 4096
        ∨ ((w.toNat / 4096 ≤ 3 ∨ w.toNat / 4096 = 6) ∧ w.toNat % 4096 ≠ 0)
        ∨ (w.toNat / 4096 = 4 ∧ w.toNat / 512 % 4 ≠ 0)
        ∨ (w.toNat / 4096 = 5 ∧ w.toNat % 4096 / 2 ≠ 0))
      ∧ ((∃ e, decodeCmd w = .error e) → RaisesBadCommand w))
    ∧ (decodeCmd 0x0000 = .ok .nop ∧ ∀ s : State, s.Quiet → exec .nop s = .next s)
    ∧ ∀ (s : State) (off : Offset) (d : Byte), s.Quiet →
      exec (.rdReserved off) s = .next (s.returnByte 0x00) ∧ exec (.wrIgnored off d) s = .next s

/-- Words decode to the registers and commands of R43, R64, R65 and R67 that they stand for: 0x4401 and 0x0A00 are R62's
own, 0x1700 and 0x7F00 stand in V-EN3 and V-EN4, 0x439B in V-RA10, 0x2600 in P1; 0x3700 and 0x0F00 are composed by R62 from
the offsets R43 gives DRIFT_HI and a reserved byte; the command words are R70's. -/
def Obligations.SpecWordsDecodeAsWritten : Prop :=
  decodeBus 0x4401 = .wrIrqStatus 0x01 ∧ decodeBus 0x0A00 = .rdStatus ∧ decodeBus 0x1700 = .rdStepHi 3
    ∧ decodeBus 0x7F00 = .wrIgnored 0x3F 0x00 ∧ decodeBus 0x439B = .wrMode 0x9B ∧ decodeBus 0x2600 = .rdMeasuredLo
    ∧ decodeBus 0x3700 = .rdDriftHi ∧ decodeBus 0x0F00 = .rdReserved 0x0F
    ∧ decodeCmd 0x0000 = .ok .nop ∧ decodeCmd 0x1000 = .ok .detect ∧ decodeCmd 0x2000 = .ok .enable
    ∧ decodeCmd 0x3000 = .ok .disable ∧ decodeCmd 0x6000 = .ok .softWrap ∧ decodeCmd 0x5001 = .ok (.setDebug true)
    ∧ decodeCmd 0x4832 = .ok (.addStep true 50) ∧ decodeCmd 0x4864 = .ok (.addStep true 100) ∧ decodeCmd 0x40C8 = .ok (.addStep false 200)
    ∧ decodeCmd 0x492C = .ok (.addStep true 300) ∧ decodeCmd 0x49FF = .ok (.addStep true 0x1FF)

/-! ### The step -/

/-- When the host moves next and its next operation is a bus transaction in the window, the step is exec of the decoded
instruction on the state whose turn and operation are taken off; and withFetchWord places exactly that. When the beam moves
next, the step is the beam step of the state whose turn is taken off (R11, R123). Mainline with nothing left begins its main
loop again (R164). With no turn listed the recurring turns come, and with none of those the beam. The turns, the lists of
operations, the main loop's among them, and the placing are the model's choices (assumption log 5, 6, 7). -/
def Obligations.StepRunsTheDecodedTransaction : Prop :=
  (∀ (s : State) (ts : List Turn) (rest : List HostOp) (w : BusWord),
      s.params.Valid → s.turns = .host :: ts → s.thread.ops = busOp s.params w :: rest →
        step s = exec (decodeBus w) ({ s with turns := ts } : State).dropOp)
    ∧ (∀ (s : State) (n w : Nat),
      s.params.Valid → w % 2 ^ n < 2 ^ 15 →
        step (s.withFetchWord n w) = exec (decodeBus (BitVec.ofNat 15 (w % 2 ^ n))) s)
    ∧ (∀ (s : State) (ts : List Turn), s.params.Valid →
      (s.turns = .beam :: ts → step s = .next ({ s with turns := ts } : State).beamStep)
        ∧ (s.turns = .host :: ts → s.thread.ops = [] → (s.host.context = .mainline → s.host.mainLoop = []) →
          step s = .next { s with turns := ts })
        ∧ (s.turns = .host :: ts → s.host.context = .mainline → s.host.main.ops = [] →
          step s = step { s with host := { s.host with main := { s.host.main with ops := s.host.mainLoop } } }))
    ∧ (∀ s : State, s.params.Valid → s.turns = [] →
      (s.recurring = [] → step s = .next s.beamStep)
        ∧ ∀ (t : Turn) (ts : List Turn), s.recurring = t :: ts → step s = step { s with turns := t :: ts })

/-- R8: a configuration that breaks a constraint is refused. -/
def Obligations.ParametersOutOfRangeAreRefused : Prop :=
  ∀ s : State,
    (s.params.base % 64 ≠ 0 ∨ s.params.hwLines < 2 ∨ 512 < s.params.hwLines ∨ s.params.bottomInvisible < 1
        ∨ 262 < s.params.bottomInvisible ∨ s.params.hwLines ≤ s.params.defaultLine ∨ s.params.pollThreshold < 1
        ∨ s.params.hwLines ≤ s.params.pollThreshold) →
      step s = .refused .paramOutOfRange

/-! ### Reset and invariants -/

/-- R41's table, for every configuration, every draw and every host code. -/
def Obligations.ResetGivesTheTabulatedValues : Prop :=
  ∀ (p : Params) (r : Line) (m : BitVec 7) (rom : Bool) (cb : Vector HostRoutine 8) (raw : HostRoutine)
    (boot loop : List HostOp),
    let s := State.resetWith p r m rom cb raw boot loop
    s.scu = { raster := r, compare := 0, modeOther := m, rst := false, irqEnRst := false }
      ∧ s.seq.enabled = false ∧ s.seq.debug = false ∧ s.seq.seqState = .idle ∧ s.seq.cbStep = 0
      ∧ s.seq.curIndex = 0 ∧ s.seq.stepCount = 0 ∧ (∀ k, s.stepAt k = { line := 0, cbv := false })
      ∧ s.seq.vecSlot = false ∧ s.err = { flag := false, code := 0 } ∧ s.det = { detecting := false, prev := 0 }
      ∧ s.metrics = { valid := false, regionA := false, fps := 0, mspf := 0, totalLines := 0, measured := 0 }
      ∧ s.clock = { frameCounter := 0, seconds := 0, millis := 0, drift := 0 }
      ∧ s.hold = { raster := false, total := 0, meas := 0, fc := 0, sec := 0, ms := 0, drift := 0 }
      ∧ s.cmdLo = 0 ∧ s.irqOut = false ∧ s.dbgFlag = false ∧ s.trace = []
      ∧ s.host.hostI = true ∧ s.host.context = .mainline ∧ s.host.lastFrame = 0

/-- The invariant of R40 and the arming of its item 8 hold after reset, whatever the draws. -/
def Obligations.ResetSatisfiesTheInvariant : Prop :=
  ∀ (p : Params) (r : Line) (m : BitVec 7) (rom : Bool) (cb : Vector HostRoutine 8) (raw : HostRoutine)
    (boot loop : List HostOp),
    p.Valid → r.toNat < p.hwLines →
      (State.resetWith p r m rom cb raw boot loop).Inv ∧ (State.resetWith p r m rom cb raw boot loop).Armed

/-- R40, items 1 to 7, and R125: every step keeps them. -/
def Obligations.EveryStepKeepsTheInvariant : Prop :=
  ∀ s t : State, s.Inv → step s = .next t → t.Inv

/-- R40, item 8: only a host write of COMPARE_LO or MODE can break the sequencer's arming, and ENABLE restores it. Item 8's
other way back, any SEQ_FIRE, is not stated here: by R127 FIRE_SINGLE does not re-arm (assumption log 24). -/
def Obligations.OnlyCompareWritesBreakTheArming : Prop :=
  (∀ s : State, s.Inv → s.Armed → s.beamStep.Armed)
    ∧ (∀ (s t : State) (i : Instr),
      s.Inv → s.Armed → (∀ d, i ≠ .wrCompareLo d ∧ i ≠ .wrMode d) → exec i s = .next t → t.Armed)
    ∧ (∀ s t : State, s.metrics.valid = true → exec .enable s = .next t → t.seq.enabled = true ∧ t.Armed)

/-- R125: no state between steps has a fire pending. -/
def Obligations.NoFireIsPendingBetweenSteps : Prop :=
  (∀ (s t : State) (i : Instr), exec i s = .next t → t.Quiet)
    ∧ (∀ s : State, s.beamStep.Quiet)
    ∧ (∀ s t : State, s.Quiet → step s = .next t → t.Quiet)

/-- R125: only a compare match and a write of IRQ_EN with bit 0 = 1 make the sequencer fire, and each at most once. -/
def Obligations.OnlyAMatchOrAnEnableWriteFires : Prop :=
  (∀ (s t : State) (i : Instr), s.Inv → exec i s = .next t →
      fires t.trace = fires s.trace
        ∨ ((∃ d : Byte, i = .wrIrqEn d ∧ d.toNat % 2 = 1) ∧ s.seq.enabled = true ∧ s.seq.seqState = .idle
          ∧ s.scu.rst = true ∧ ∃ k, fires t.trace = fires s.trace ++ [k]))
    ∧ (∀ s : State, s.Inv →
      fires s.beamStep.trace = fires s.trace
        ∨ ((s.scu.raster.toNat + 1) % s.params.hwLines = s.scu.compare.toNat ∧ s.seq.enabled = true
          ∧ s.seq.seqState = .idle ∧ ∃ k, fires s.beamStep.trace = fires s.trace ++ [k]))

/-! ### Register reads -/

/-- R73, R74, R75, R77, R79, R81. -/
def Obligations.ScanlineReadsReturnTheirRegisters : Prop :=
  (∀ d : Byte,
      decodeBus (busWord false 0x00 d) = .rdRasterLo ∧ decodeBus (busWord false 0x01 d) = .rdRasterHi
        ∧ decodeBus (busWord false 0x02 d) = .rdCompareLo ∧ decodeBus (busWord false 0x03 d) = .rdMode
        ∧ decodeBus (busWord false 0x04 d) = .rdIrqStatus ∧ decodeBus (busWord false 0x05 d) = .rdIrqEn)
    ∧ ∀ s : State, s.Quiet →
      exec .rdRasterLo s
          = .next (({ s with hold := { s.hold with raster := decide (256 ≤ s.scu.raster.toNat) } } : State).returnByte
              (BitVec.ofNat 8 (s.scu.raster.toNat % 256)))
        ∧ exec .rdRasterHi s = .next (s.returnByte (if s.hold.raster = true then 1 else 0))
        ∧ exec .rdCompareLo s = .next (s.returnByte (BitVec.ofNat 8 (s.scu.compare.toNat % 256)))
        ∧ exec .rdMode s
          = .next (s.returnByte (BitVec.ofNat 8 (s.scu.compare.toNat / 256 * 128 + s.scu.modeOther.toNat)))
        ∧ exec .rdIrqStatus s = .next (s.returnByte (if s.scu.rst = true then 1 else 0))
        ∧ exec .rdIrqEn s = .next (s.returnByte (if s.scu.irqEnRst = true then 1 else 0))

/-- R83, R85, R87 (with R44's bits), R88, R89, R90, R91. -/
def Obligations.CommandAndStatusReadsReturnTheirRegisters : Prop :=
  (∀ d : Byte,
      decodeBus (busWord false 0x08 d) = .rdCmdLo ∧ decodeBus (busWord false 0x09 d) = .rdCmdHi
        ∧ decodeBus (busWord false 0x0A d) = .rdStatus ∧ decodeBus (busWord false 0x0B d) = .rdErrCode
        ∧ decodeBus (busWord false 0x0C d) = .rdCurIndex ∧ decodeBus (busWord false 0x0D d) = .rdStepCount
        ∧ decodeBus (busWord false 0x0E d) = .rdCbStep)
    ∧ ∀ s : State, s.Quiet →
      exec .rdCmdLo s = .next (s.returnByte s.cmdLo)
        ∧ exec .rdCmdHi s = .next (s.returnByte 0x00)
        ∧ exec .rdStatus s
          = .next (s.returnByte (BitVec.ofNat 8
              (s.seq.enabled.toNat + 2 * (s.seq.debug).toNat + (if s.seq.seqState = .cbWait then 4 else 0)
                + 8 * s.det.detecting.toNat + 16 * s.metrics.valid.toNat + 32 * s.err.flag.toNat
                + 64 * s.seq.vecSlot.toNat)))
        ∧ exec .rdErrCode s = .next (s.returnByte s.err.code)
        ∧ exec .rdCurIndex s = .next (s.returnByte (BitVec.ofNat 8 s.seq.curIndex.toNat))
        ∧ exec .rdStepCount s = .next (s.returnByte (BitVec.ofNat 8 s.seq.stepCount.toNat))
        ∧ exec .rdCbStep s = .next (s.returnByte (BitVec.ofNat 8 s.seq.cbStep.toNat))

/-- R92, R93: the sixteen step-table registers. -/
def Obligations.StepTableReadsReturnTheirEntry : Prop :=
  ∀ k : StepIndex,
    (∀ d : Byte,
      decodeBus (busWord false (BitVec.ofNat 6 (0x10 + 2 * k.toNat)) d) = .rdStepLo k
        ∧ decodeBus (busWord false (BitVec.ofNat 6 (0x11 + 2 * k.toNat)) d) = .rdStepHi k)
    ∧ ∀ s : State, s.Quiet →
      exec (.rdStepLo k) s = .next (s.returnByte (BitVec.ofNat 8 ((s.stepAt k).line.toNat % 256)))
        ∧ exec (.rdStepHi k) s
          = .next (s.returnByte (BitVec.ofNat 8 ((s.stepAt k).cbv.toNat * 128 + (s.stepAt k).line.toNat / 256)))

/-- R94 to R100. -/
def Obligations.MetricsReadsReturnTheirRegisters : Prop :=
  (∀ d : Byte,
      decodeBus (busWord false 0x20 d) = .rdMetricsFlags ∧ decodeBus (busWord false 0x21 d) = .rdFps
        ∧ decodeBus (busWord false 0x22 d) = .rdMspf ∧ decodeBus (busWord false 0x24 d) = .rdTotalLinesLo
        ∧ decodeBus (busWord false 0x25 d) = .rdTotalLinesHi ∧ decodeBus (busWord false 0x26 d) = .rdMeasuredLo
        ∧ decodeBus (busWord false 0x27 d) = .rdMeasuredHi)
    ∧ ∀ s : State, s.Quiet →
      exec .rdMetricsFlags s = .next (s.returnByte (if s.metrics.regionA = true then 1 else 0))
        ∧ exec .rdFps s = .next (s.returnByte s.metrics.fps)
        ∧ exec .rdMspf s = .next (s.returnByte s.metrics.mspf)
        ∧ exec .rdTotalLinesLo s
          = .next (({ s with hold := { s.hold with total := BitVec.ofNat 8 (s.metrics.totalLines.toNat / 256) } } :
              State).returnByte (BitVec.ofNat 8 (s.metrics.totalLines.toNat % 256)))
        ∧ exec .rdTotalLinesHi s = .next (s.returnByte s.hold.total)
        ∧ exec .rdMeasuredLo s
          = .next (({ s with hold := { s.hold with meas := BitVec.ofNat 8 (s.metrics.measured.toNat / 256) } } :
              State).returnByte (BitVec.ofNat 8 (s.metrics.measured.toNat % 256)))
        ∧ exec .rdMeasuredHi s = .next (s.returnByte s.hold.meas)

/-- R101 to R108. -/
def Obligations.ClockReadsReturnTheirRegisters : Prop :=
  (∀ d : Byte,
      decodeBus (busWord false 0x30 d) = .rdFcLo ∧ decodeBus (busWord false 0x31 d) = .rdFcHi
        ∧ decodeBus (busWord false 0x32 d) = .rdSecLo ∧ decodeBus (busWord false 0x33 d) = .rdSecHi
        ∧ decodeBus (busWord false 0x34 d) = .rdMsLo ∧ decodeBus (busWord false 0x35 d) = .rdMsHi
        ∧ decodeBus (busWord false 0x36 d) = .rdDriftLo ∧ decodeBus (busWord false 0x37 d) = .rdDriftHi)
    ∧ ∀ s : State, s.Quiet →
      exec .rdFcLo s
          = .next (({ s with hold := { s.hold with fc := BitVec.ofNat 8 (s.clock.frameCounter.toNat / 256) } } :
              State).returnByte (BitVec.ofNat 8 (s.clock.frameCounter.toNat % 256)))
        ∧ exec .rdFcHi s = .next (s.returnByte s.hold.fc)
        ∧ exec .rdSecLo s
          = .next (({ s with hold := { s.hold with sec := BitVec.ofNat 8 (s.clock.seconds.toNat / 256) } } :
              State).returnByte (BitVec.ofNat 8 (s.clock.seconds.toNat % 256)))
        ∧ exec .rdSecHi s = .next (s.returnByte s.hold.sec)
        ∧ exec .rdMsLo s
          = .next (({ s with hold := { s.hold with ms := BitVec.ofNat 8 (s.clock.millis.toNat / 256) } } :
              State).returnByte (BitVec.ofNat 8 (s.clock.millis.toNat % 256)))
        ∧ exec .rdMsHi s = .next (s.returnByte s.hold.ms)
        ∧ exec .rdDriftLo s
          = .next (({ s with hold := { s.hold with drift := BitVec.ofNat 8 (s.clock.drift.toNat / 256) } } :
              State).returnByte (BitVec.ofNat 8 (s.clock.drift.toNat % 256)))
        ∧ exec .rdDriftHi s = .next (s.returnByte s.hold.drift)

/-- R109, R110: a reserved read returns 0x00, and an ignored write changes nothing, at every offset they name. -/
def Obligations.ReservedReadsAreZeroAndIgnoredWritesDoNothing : Prop :=
  (∀ (off : Offset) (d : Byte),
      (off ∈ [0x06, 0x07, 0x0F, 0x23, 0x28, 0x29, 0x2A, 0x2B, 0x2C, 0x2D, 0x2E, 0x2F, 0x38, 0x39, 0x3A, 0x3B, 0x3C,
        0x3D, 0x3E, 0x3F] → decodeBus (busWord false off d) = .rdReserved off)
        ∧ (off ∈ [0x00, 0x01, 0x06, 0x07] ∨ 0x0A ≤ off.toNat → decodeBus (busWord true off d) = .wrIgnored off d))
    ∧ ∀ (s : State) (off : Offset) (d : Byte), s.Quiet →
      exec (.rdReserved off) s = .next (s.returnByte 0x00) ∧ exec (.wrIgnored off d) s = .next s

/-- R50: each latched pair, read LO then HI, gives one value that the field held at the LO read, whatever beam steps,
transactions and commands fall between, so long as none reads the same LO byte. -/
def Obligations.LatchedPairsReadConsistently : Prop :=
  ReadsConsistently .rdRasterLo .rdRasterHi (fun s => s.scu.raster.toNat)
    ∧ ReadsConsistently .rdTotalLinesLo .rdTotalLinesHi (fun s => s.metrics.totalLines.toNat)
    ∧ ReadsConsistently .rdMeasuredLo .rdMeasuredHi (fun s => s.metrics.measured.toNat)
    ∧ ReadsConsistently .rdFcLo .rdFcHi (fun s => s.clock.frameCounter.toNat)
    ∧ ReadsConsistently .rdSecLo .rdSecHi (fun s => s.clock.seconds.toNat)
    ∧ ReadsConsistently .rdMsLo .rdMsHi (fun s => s.clock.millis.toNat)
    ∧ ReadsConsistently .rdDriftLo .rdDriftHi (fun s => s.clock.drift.toNat)

/-! ### Register writes -/

/-- R76, R78. -/
def Obligations.CompareWritesSetTheirBits : Prop :=
  ∀ d : Byte,
    decodeBus (busWord true 0x02 d) = .wrCompareLo d ∧ decodeBus (busWord true 0x03 d) = .wrMode d
      ∧ ∀ s : State, s.Quiet →
        exec (.wrCompareLo d) s
            = .next { s with
                scu := { s.scu with compare := BitVec.ofNat 9 (s.scu.compare.toNat / 256 * 256 + d.toNat) } }
          ∧ exec (.wrMode d) s
            = .next { s with
                scu := { s.scu with
                  compare := BitVec.ofNat 9 (d.toNat / 128 * 256 + s.scu.compare.toNat % 256)
                  modeOther := BitVec.ofNat 7 (d.toNat % 128) } }

/-- R80: the acknowledge. -/
def Obligations.AcknowledgeClearsTheLatchAndEndsTheRequest : Prop :=
  ∀ (s : State) (d : Byte),
    decodeBus (busWord true 0x04 d) = .wrIrqStatus d
      ∧ (d.toNat % 2 = 0 → s.Quiet → exec (.wrIrqStatus d) s = .next s)
      ∧ (d.toNat % 2 = 1 → s.seq.seqState = .idle →
        exec (.wrIrqStatus d) s = .next { s with scu := { s.scu with rst := false } })
      ∧ (d.toNat % 2 = 1 → s.seq.seqState = .cbWait →
        exec (.wrIrqStatus d) s
          = .next { s with
              scu := { s.scu with rst := false }
              seq := { s.seq with seqState := .idle }
              trace := s.trace ++ [.cbDone s.seq.cbStep] })

/-- R82: the enable write, and the fire it makes pending in the same step. -/
def Obligations.EnableWriteSetsBitZeroAndMayFire : Prop :=
  ∀ (s : State) (d : Byte),
    let u : State := { s with scu := { s.scu with irqEnRst := decide (d.toNat % 2 = 1) } }
    decodeBus (busWord true 0x05 d) = .wrIrqEn d
      ∧ (d.toNat % 2 = 1 ∧ s.seq.enabled = true ∧ s.scu.rst = true ∧ s.seq.seqState = .idle
          ∧ s.det.detecting = false → exec (.wrIrqEn d) s = .next u.seqFire)
      ∧ (¬ (d.toNat % 2 = 1 ∧ s.seq.enabled = true ∧ s.scu.rst = true ∧ s.seq.seqState = .idle
          ∧ s.det.detecting = false) → exec (.wrIrqEn d) s = .next u)
      ∧ (s.seq.enabled = false → s.det.detecting = false →
        u.irqOut = (decide (d.toNat % 2 = 1) && s.scu.rst))

/-- R84. -/
def Obligations.CmdLoWriteStagesTheByte : Prop :=
  ∀ (s : State) (d : Byte), s.Quiet →
    decodeBus (busWord true 0x08 d) = .wrCmdLo d ∧ exec (.wrCmdLo d) s = .next { s with cmdLo := d }

/-- R86, R135: a write of CMD_HI runs the command whose word is `{d, CMD_LO}`, or raises BAD_COMMAND and nothing else. -/
def Obligations.CmdHiWriteExecutesTheStagedWord : Prop :=
  ∀ (s : State) (d : Byte),
    decodeBus (busWord true 0x09 d) = .wrCmdHi d
      ∧ (∀ i, decodeCmd (BitVec.ofNat 16 (256 * d.toNat + s.cmdLo.toNat)) = .ok i →
        ∃ t, exec i s = .next t ∧ exec (.wrCmdHi d) s = .next t ∧ t.cmdLo = s.cmdLo)
      ∧ (∀ e, decodeCmd (BitVec.ofNat 16 (256 * d.toNat + s.cmdLo.toNat)) = .error e → s.Quiet →
        exec (.wrCmdHi d) s = .next (s.afterError .badCommand 0x02))

/-! ### Commands -/

/-- R130. -/
def Obligations.NopChangesNothing : Prop :=
  decodeCmd 0x0000 = .ok .nop
    ∧ (∀ w : Half, w.toNat / 4096 = 0 → w.toNat % 4096 ≠ 0 → RaisesBadCommand w)
    ∧ ∀ s : State, s.Quiet → exec .nop s = .next s

/-- R113: DETECT starts the one measurement. -/
def Obligations.DetectStartsTheMeasurementOnce : Prop :=
  decodeCmd 0x1000 = .ok .detect
    ∧ (∀ w : Half, w.toNat / 4096 = 1 → w.toNat % 4096 ≠ 0 → RaisesBadCommand w)
    ∧ (∀ s : State, s.Quiet → s.metrics.valid = true ∨ s.det.detecting = true → exec .detect s = .next s)
    ∧ (∀ s : State, s.metrics.valid = false → s.det.detecting = false →
      exec .detect s = .next { s with det := { detecting := true, prev := s.scu.raster } })

/-- R131: ENABLE's whole effect, or METRICS_INVALID and nothing else. -/
def Obligations.EnableArmsTheScheduler : Prop :=
  decodeCmd 0x2000 = .ok .enable
    ∧ (∀ w : Half, w.toNat / 4096 = 2 → w.toNat % 4096 ≠ 0 → RaisesBadCommand w)
    ∧ (∀ s : State, s.metrics.valid = true →
      exec .enable s
        = .next { s with
            trace := s.trace ++ [.extAck .a, .extAck .b]
            scu := { s.scu with
              rst := false
              compare := if s.seq.stepCount = 0 then BitVec.ofNat 9 s.params.defaultLine else (s.stepAt 0).line
              irqEnRst := true }
            seq := { s.seq with
              seqState := .idle
              curIndex := 0
              vecSlot := s.host.romDisabled
              enabled := true } })
    ∧ (∀ s : State, s.metrics.valid = false → s.Quiet → exec .enable s = .next (s.afterError .metricsInvalid 0x01))

/-- R132. -/
def Obligations.DisableStopsTheScheduler : Prop :=
  decodeCmd 0x3000 = .ok .disable
    ∧ (∀ w : Half, w.toNat / 4096 = 3 → w.toNat % 4096 ≠ 0 → RaisesBadCommand w)
    ∧ ∀ s : State,
      exec .disable s
        = .next { s with
            seq := { s.seq with enabled := false, seqState := .idle }
            scu := { s.scu with irqEnRst := false } }

/-- R133: the silent cap, the sentinel's error, and the entry appended and, if it is the first while enabled, armed. -/
def Obligations.AddStepAppendsOneEntry : Prop :=
  (∀ (cbv : Bool) (line : Line),
      decodeCmd (BitVec.ofNat 16 (0x4000 + 0x800 * cbv.toNat + line.toNat)) = .ok (.addStep cbv line))
    ∧ (∀ w : Half, w.toNat / 4096 = 4 → w.toNat / 512 % 4 ≠ 0 → RaisesBadCommand w)
    ∧ ∀ (s : State) (cbv : Bool) (line : Line), s.Inv →
      (s.seq.stepCount.toNat = 8 → exec (.addStep cbv line) s = .next s)
        ∧ (s.seq.stepCount.toNat < 8 → line = 0x1FF → s.metrics.valid = false →
          exec (.addStep cbv line) s = .next (s.afterError .metricsInvalid 0x01))
        ∧ (s.seq.stepCount.toNat < 8 → (line = 0x1FF → s.metrics.valid = true) →
          ∃ t l, exec (.addStep cbv line) s = .next t
            ∧ l.toNat = (if line = 0x1FF then s.metrics.totalLines.toNat - s.params.bottomInvisible else line.toNat)
            ∧ t.seq.stepCount.toNat = s.seq.stepCount.toNat + 1
            ∧ (∀ k : StepIndex, t.stepAt k
                = if k.toNat = s.seq.stepCount.toNat then { line := l, cbv := cbv } else s.stepAt k)
            ∧ t.scu.compare = (if s.seq.stepCount = 0 ∧ s.seq.enabled = true then l else s.scu.compare)
            ∧ t = { s with
                seq := { s.seq with steps := t.seq.steps, stepCount := t.seq.stepCount }
                scu := { s.scu with compare := t.scu.compare } })

/-- R134: SET_DEBUG writes DEBUG and nothing else. -/
def Obligations.SetDebugWritesDebug : Prop :=
  decodeCmd 0x5000 = .ok (.setDebug false) ∧ decodeCmd 0x5001 = .ok (.setDebug true)
    ∧ (∀ w : Half, w.toNat / 4096 = 5 → w.toNat % 4096 / 2 ≠ 0 → RaisesBadCommand w)
    ∧ ∀ (s : State) (d : Bool), s.Quiet →
      exec (.setDebug d) s = .next { s with seq := { s.seq with debug := d } }

/-- R143: SOFT_WRAP is ignored while enabled, an error without metrics, and else one WRAP. -/
def Obligations.SoftWrapRunsOneWrapWhileDisabled : Prop :=
  decodeCmd 0x6000 = .ok .softWrap
    ∧ (∀ w : Half, w.toNat / 4096 = 6 → w.toNat % 4096 ≠ 0 → RaisesBadCommand w)
    ∧ ∀ s : State,
      (s.seq.enabled = true → s.Quiet → exec .softWrap s = .next s)
        ∧ (s.seq.enabled = false → s.metrics.valid = false →
          exec .softWrap s = .next (s.afterError .metricsInvalid 0x01))
        ∧ (s.seq.enabled = false → s.metrics.valid = true → exec .softWrap s = .next s.wrap)

/-! ### The frame clock -/

/-- R139: WRAP, as arithmetic on the four fields. -/
def Obligations.WrapUpdatesTheFrameClock : Prop :=
  ∀ s : State, s.Inv → s.metrics.valid = true →
    let dr := if s.metrics.regionA = true then s.clock.drift.toNat else s.clock.drift.toNat + 667
    let c := if s.metrics.regionA = false ∧ 1000 ≤ dr then 1 else 0
    let ms := s.clock.millis.toNat + s.metrics.mspf.toNat + c
    let t := s.wrap
    t.clock.frameCounter.toNat = (s.clock.frameCounter.toNat + 1) % 65536
      ∧ t.clock.drift.toNat = dr - 1000 * c
      ∧ t.clock.millis.toNat = (if 1000 ≤ ms then ms - 1000 else ms)
      ∧ t.clock.seconds.toNat = (if 1000 ≤ ms then (s.clock.seconds.toNat + 1) % 65536 else s.clock.seconds.toNat)
      ∧ t = { s with clock := t.clock, trace := s.trace ++ [.wrap t.clock.frameCounter] }

/-- R140: the closed forms after k WRAPs from the reset clock, in both regions. -/
def Obligations.FrameClockClosedForms : Prop :=
  ∀ (m : Metrics) (k : Nat), m.Known →
    let c := FrameClock.zero.wrapTimes m k
    let total := if m.regionA = true then 20 * k else 16 * k + 667 * k / 1000
    c.frameCounter.toNat = k % 65536
      ∧ c.millis.toNat = total % 1000
      ∧ c.seconds.toNat = total / 1000 % 65536
      ∧ c.drift.toNat = (if m.regionA = true then 0 else 667 * k % 1000)

/-- R139, R142: a step changes the frame clock only by one WRAP, with valid metrics. -/
def Obligations.OnlyWrapChangesTheFrameClock : Prop :=
  ∀ s t : State, s.Inv → step s = .next t →
    t.clock = s.clock ∨ (s.metrics.valid = true ∧ t.clock = s.clock.wrapped s.metrics)

/-! ### The sequencer and the beam -/

/-- R127: FIRE_SINGLE's three outcomes, with its events in order. -/
def Obligations.FireSingleWrapsThenRequestsOrAcknowledges : Prop :=
  ∀ s : State,
    let c := s.clock.wrapped s.metrics
    (s.seq.stepCount = 0 →
      s.seqFire
        = { s with
            clock := c
            scu := { s.scu with rst := false }
            trace := s.trace ++ [.fire none, .wrap c.frameCounter, .selfAck] })
      ∧ (s.seq.stepCount = 1 → (s.stepAt 0).cbv = false →
        s.seqFire
          = { s with
              clock := c
              scu := { s.scu with rst := false }
              trace := s.trace ++ [.fire (some 0), .wrap c.frameCounter, .selfAck] })
      ∧ (s.seq.stepCount = 1 → (s.stepAt 0).cbv = true →
        s.seqFire
          = { s with
              clock := c
              seq := { s.seq with cbStep := 0, seqState := .cbWait }
              trace := s.trace ++ [.fire (some 0), .wrap c.frameCounter, .cbRequest 0] })

/-- R128: FIRE_MULTI, with its events in order. -/
def Obligations.FireMultiRearmsThenWrapsThenRequestsOrAcknowledges : Prop :=
  ∀ s : State, 2 ≤ s.seq.stepCount.toNat → s.seq.stepCount.toNat ≤ 8 →
    let nxt := (s.seq.curIndex.toNat + 1) % s.seq.stepCount.toNat
    let c := if nxt = 0 then s.clock.wrapped s.metrics else s.clock
    let wraps := if nxt = 0 then [Event.wrap c.frameCounter] else []
    let t := s.seqFire
    t.seq.curIndex.toNat = nxt
      ∧ t.scu.compare = (s.stepAt t.seq.curIndex).line
      ∧ ((s.stepAt s.seq.curIndex).cbv = true →
        t = { s with
            clock := c
            seq := { s.seq with curIndex := t.seq.curIndex, cbStep := s.seq.curIndex, seqState := .cbWait }
            scu := { s.scu with compare := t.scu.compare }
            trace := s.trace ++ [.fire (some s.seq.curIndex)] ++ wraps ++ [.cbRequest s.seq.curIndex] })
      ∧ ((s.stepAt s.seq.curIndex).cbv = false →
        t = { s with
            clock := c
            seq := { s.seq with curIndex := t.seq.curIndex }
            scu := { s.scu with compare := t.scu.compare, rst := false }
            trace := s.trace ++ [.fire (some s.seq.curIndex)] ++ wraps ++ [.selfAck] })

/-- R123: the beam step, with the settle of R125. -/
def Obligations.BeamStepAdvancesMatchesSamplesSettles : Prop :=
  ∀ s : State, s.Inv →
    let r : Line := BitVec.ofNat 9 ((s.scu.raster.toNat + 1) % s.params.hwLines)
    let missed : State := { s with scu := { s.scu with raster := r } }
    let hit : State :=
      { s with scu := { s.scu with raster := r, rst := true }, trace := s.trace ++ [.matched r] }
    r.toNat = (s.scu.raster.toNat + 1) % s.params.hwLines
      ∧ (r ≠ s.scu.compare → s.beamStep = missed.detSample)
      ∧ (r = s.scu.compare → s.seq.enabled = true → s.scu.irqEnRst = true → s.seq.seqState = .idle →
        s.beamStep = hit.detSample.seqFire)
      ∧ (r = s.scu.compare → s.seq.enabled = false ∨ s.scu.irqEnRst = false ∨ s.seq.seqState = .cbWait →
        s.beamStep = hit.detSample)

/-- R114, R118: the detector sample and the classification. -/
def Obligations.DetectorSampleMeasuresAtTheRollover : Prop :=
  ∀ s : State,
    (s.det.detecting = false → s.detSample = s)
      ∧ (s.det.detecting = true → s.det.prev.toNat ≤ s.scu.raster.toNat →
        s.detSample = { s with det := { detecting := true, prev := s.scu.raster } })
      ∧ (s.det.detecting = true → s.scu.raster.toNat < s.det.prev.toNat → 300 < s.det.prev.toNat + 1 →
        s.detSample
          = { s with
              det := { s.det with detecting := false }
              metrics :=
                { valid := true, regionA := true, fps := 50, mspf := 20, totalLines := 312,
                  measured := BitVec.ofNat 16 (s.det.prev.toNat + 1) } })
      ∧ (s.det.detecting = true → s.scu.raster.toNat < s.det.prev.toNat → s.det.prev.toNat + 1 ≤ 300 →
        s.detSample
          = { s with
              det := { s.det with detecting := false }
              metrics :=
                { valid := true, regionA := false, fps := 60, mspf := 16, totalLines := 262,
                  measured := BitVec.ofNat 16 (s.det.prev.toNat + 1) } })

/-- R115, R116: whatever the host does meanwhile, a measurement started at line r runs for P_HW_LINES − r beam steps and
measures P_HW_LINES, which decides the region and with it every metric (R121). In every weakly fair run, in any order and with
host code that goes on in any way, it completes (R178): that such a run is a sequence of turns over host code in lists is
the model's choice (assumption log 5, 6, 17). -/
def Obligations.DetectionMeasuresTheFrameInTime : Prop :=
  ∀ (s u : State) (os : List (Option Instr)),
    s.Inv → s.metrics.valid = false → s.det.detecting = false → exec .detect s = .next u →
      (os.count none < s.params.hwLines - s.scu.raster.toNat →
        (u.blockRun os).det.detecting = true ∧ (u.blockRun os).metrics.valid = false)
      ∧ (s.params.hwLines - s.scu.raster.toNat ≤ os.count none →
        (u.blockRun os).det.detecting = false ∧ (u.blockRun os).metrics.valid = true
          ∧ (u.blockRun os).metrics.measured.toNat = s.params.hwLines
          ∧ (u.blockRun os).metrics.regionA = decide (300 < s.params.hwLines)
          ∧ (u.blockRun os).metrics.Known)
      ∧ ∀ (σ : Nat → Turn) (r : Nat → State), r 0 = u → ScheduledRun σ r → WeaklyFair σ r →
        ∃ n, (r n).det.detecting = false ∧ (r n).metrics.valid = true
          ∧ (r n).metrics.measured.toNat = s.params.hwLines

/-- R117: while a measurement runs, IRQ_OUT is 0, nothing fires, ENABLE does not succeed, and a match still sets RST. -/
def Obligations.DetectionMasksTheInterruptAndTheSequencer : Prop :=
  ∀ s : State, s.Inv → s.det.detecting = true →
    s.irqOut = false
      ∧ s.firePending = false
      ∧ fires s.beamStep.trace = fires s.trace
      ∧ ((s.scu.raster.toNat + 1) % s.params.hwLines = s.scu.compare.toNat → s.beamStep.scu.rst = true)
      ∧ (∀ (i : Instr) (t : State), exec i s = .next t →
        fires t.trace = fires s.trace ∧ t.seq.enabled = false ∧ t.irqOut = false)

/-- R119: once valid, the metrics never change. -/
def Obligations.MetricsAreWrittenOnce : Prop :=
  ∀ s t : State, s.Inv → step s = .next t →
    (s.metrics.valid = true → t.metrics = s.metrics)
      ∧ (t.metrics ≠ s.metrics → s.metrics.valid = false ∧ s.det.detecting = true ∧ t.det.detecting = false)

/-- R129: a match during CB_WAIT emits Match and starts no fire; the acknowledge then clears RST. -/
def Obligations.MatchDuringACallbackIsLost : Prop :=
  ∀ s : State, s.Inv → s.seq.seqState = .cbWait →
    let r : Line := BitVec.ofNat 9 ((s.scu.raster.toNat + 1) % s.params.hwLines)
    s.beamStep
        = { s with
            scu := { s.scu with raster := r }
            trace := s.trace ++ (if r = s.scu.compare then [.matched r] else []) }
      ∧ ∃ t, exec (.wrIrqStatus 0x01) s.beamStep = .next t ∧ t.scu.rst = false ∧ t.seq.seqState = .idle
          ∧ fires t.trace = fires s.trace ∧ t.seq.curIndex = s.seq.curIndex

/-- R138 for fewer than two steps and no callback: in one frame of beam steps the armed line matches once, fires once and
wraps once, and everything but the clock, RST and the trace is as it was. -/
def Obligations.SingleLineWrapsOncePerFrame : Prop :=
  ∀ s : State, s.Inv → s.seq.enabled = true → s.scu.irqEnRst = true → s.seq.seqState = .idle →
    s.seq.stepCount = 0 ∨ (s.seq.stepCount = 1 ∧ (s.stepAt 0).cbv = false) →
    s.scu.compare.toNat < s.params.hwLines →
      s.beamSteps s.params.hwLines
        = { s with
            clock := s.clock.wrapped s.metrics
            scu := { s.scu with rst := false }
            trace := s.trace ++ [.matched s.scu.compare, .fire (if s.seq.stepCount = 1 then some 0 else none),
              .wrap (s.clock.frameCounter + 1), .selfAck] }

/-- R136 for steps without callbacks: with strictly ascending lines inside the frame, one frame of beam steps fires every
step once, in order, and wraps once. -/
def Obligations.AscendingStepsFireOncePerFrame : Prop :=
  ∀ s : State, s.Inv → s.Armed → s.seq.enabled = true → s.scu.irqEnRst = true → s.seq.seqState = .idle →
    2 ≤ s.seq.stepCount.toNat → s.seq.curIndex = 0 →
    (∀ k : StepIndex, k.toNat < s.seq.stepCount.toNat →
      (s.stepAt k).cbv = false ∧ (s.stepAt k).line.toNat < s.params.hwLines) →
    (∀ j k : StepIndex, j.toNat < k.toNat → k.toNat < s.seq.stepCount.toNat →
      (s.stepAt j).line.toNat < (s.stepAt k).line.toNat) →
    (s.scu.raster.toNat < (s.stepAt 0).line.toNat
      ∨ (s.stepAt (BitVec.ofNat 3 (s.seq.stepCount.toNat - 1))).line.toNat ≤ s.scu.raster.toNat) →
      let t := s.beamSteps s.params.hwLines
      fires t.trace
          = fires s.trace ++ (List.range s.seq.stepCount.toNat).map (fun k => some (BitVec.ofNat 3 k))
        ∧ t.clock = s.clock.wrapped s.metrics
        ∧ t.seq = s.seq
        ∧ t.scu = { s.scu with rst := false }

/-! ### Errors, outputs, the table and the trace -/

/-- R146, R147: the error state is sticky, keeps the first code, and only codes 1 and 2 are ever written. -/
def Obligations.ErrorStateIsStickyAndKeepsTheFirstCode : Prop :=
  ∀ s t : State, step s = .next t →
    (s.err.flag = true → t.err = s.err)
      ∧ (t.err ≠ s.err → s.err.flag = false ∧ t.err.flag = true ∧ (t.err.code = 0x01 ∨ t.err.code = 0x02))

/-- R36, R37: the two outputs. -/
def Obligations.OutputsFollowTheirEquations : Prop :=
  ∀ s : State,
    (s.det.detecting = true → s.irqOut = false)
      ∧ (s.det.detecting = false → s.seq.enabled = true → (s.irqOut = true ↔ s.seq.seqState = .cbWait))
      ∧ (s.det.detecting = false → s.seq.enabled = false →
        (s.irqOut = true ↔ s.scu.irqEnRst = true ∧ s.scu.rst = true))
      ∧ (s.dbgFlag = true ↔ s.seq.debug = true ∧ s.seq.seqState = .cbWait)

/-- R26, R27: no step lowers STEP_COUNT, raises it by more than one, or changes an entry below it. -/
def Obligations.StepTableOnlyGrows : Prop :=
  ∀ s t : State, s.Inv → step s = .next t →
    (t.seq.stepCount = s.seq.stepCount ∨ t.seq.stepCount.toNat = s.seq.stepCount.toNat + 1)
      ∧ ∀ k : StepIndex, k.toNat < s.seq.stepCount.toNat → t.stepAt k = s.stepAt k

/-- R39: the trace is append-only. -/
def Obligations.TraceIsAppendOnly : Prop :=
  ∀ s t : State, step s = .next t → ∃ es, t.trace = s.trace ++ es

/-- R17: no transaction and no command changes RASTER; nor does one change the host's mask, context, LAST_FRAME or routines,
the other context's thread, or anything of the current thread but the byte returned to it (R71). That the parameters and the
turns stand in the state, unchanged too, is the model's choice (assumption log 1, 5). -/
def Obligations.TransactionsLeaveTheBeamAndTheHostAlone : Prop :=
  ∀ (s t : State) (i : Instr), exec i s = .next t →
    t.scu.raster = s.scu.raster ∧ t.params = s.params ∧ t.turns = s.turns ∧ t.recurring = s.recurring
      ∧ t.host = (s.returnByte t.thread.data).host ∧ t.host.hostI = s.host.hostI
      ∧ t.host.context = s.host.context ∧ t.host.lastFrame = s.host.lastFrame ∧ t.host.hostCb = s.host.hostCb
      ∧ t.host.hostRaw = s.host.hostRaw ∧ t.host.romDisabled = s.host.romDisabled

/-- R134: DEBUG never changes the scheduling: two states that differ only in it step alike. -/
def Obligations.DebugDoesNotChangeBehaviour : Prop :=
  (∀ (s : State) (b : Bool), (s.withDebug b).beamStep = s.beamStep.withDebug b)
    ∧ (∀ (s t : State) (b : Bool) (i : Instr), i ≠ .rdStatus → exec i s = .next t →
      ∃ u, exec i (s.withDebug b) = .next u ∧ u.withDebug false = t.withDebug false)

/-- R19: nothing in the RSE reads MODE_OTHER but a read of MODE. -/
def Obligations.ModeOtherDoesNotChangeBehaviour : Prop :=
  (∀ (s : State) (m : BitVec 7), (s.withModeOther m).beamStep = s.beamStep.withModeOther m)
    ∧ (∀ (s t : State) (m : BitVec 7) (i : Instr), i ≠ .rdMode → exec i s = .next t →
      ∃ u, exec i (s.withModeOther m) = .next u ∧ u.withModeOther 0 = t.withModeOther 0)

/-! ### The host -/

/-- R151: when an entry is possible, what it does and when it faults; it changes no RSE state. While IRQ_OUT is 0, while
the host is masked, or in interrupt context, no entry happens. That the turn alone passes then, and that HOST_RAW is
followed by rti and counts its calls, are the model's choices (assumption log 5, 6, 13). -/
def Obligations.InterruptEntryMasksAndRunsTheHandler : Prop :=
  ∀ (s : State) (ts : List Turn), s.params.Valid → s.turns = .entry :: ts →
    (s.irqOut = true ∧ s.host.hostI = false ∧ s.host.context = .mainline →
      (s.seq.enabled = true ∧ s.host.romDisabled ≠ s.seq.vecSlot → step s = .fault .vecSlotMismatch)
        ∧ ((s.seq.enabled = true → s.host.romDisabled = s.seq.vecSlot) →
          step s
            = .next { s with
                turns := ts
                host := { s.host with
                  hostI := true
                  context := .interrupt
                  intr := { s.host.intr with
                    ops :=
                      if s.seq.enabled = true then dispatchOps s.params else s.host.hostRaw.body ++ [.rti] }
                  hostRaw := if s.seq.enabled = true then s.host.hostRaw else s.host.hostRaw.called } }))
      ∧ (s.irqOut = false ∨ s.host.hostI = true ∨ s.host.context = .interrupt →
        step s = .next { s with turns := ts })

/-- R153, R154: rti, mask, unmask and masked?; unmasking in interrupt context is a fault. That the saved context is the
mainline thread is the model's reading (assumption log 13). -/
def Obligations.HostOperationsActOnTheHostOnly : Prop :=
  ∀ s : State,
    s.runHostOp .mask = .next { s with host := { s.host with hostI := true } }
      ∧ (s.host.context = .mainline →
        s.runHostOp .unmask = .next { s with host := { s.host with hostI := false } })
      ∧ (s.host.context = .interrupt → s.runHostOp .unmask = .fault .nestedInterrupt)
      ∧ (∃ t, s.runHostOp .isMasked = .next t ∧ t.thread.bit = s.host.hostI ∧ s.SameBlock t)
      ∧ (s.host.context = .interrupt →
        ∃ t, s.runHostOp .rti = .next t ∧ t.host.context = .mainline ∧ t.host.hostI = false
          ∧ t.host.main = s.host.main ∧ s.SameBlock t)
      ∧ ∀ v, s.runHostOp (.setRomDisabled v) = .next { s with host := { s.host with romDisabled := v } }

/-- R152: the dispatcher reads CB_STEP and begins that callback; with an empty callback it then acknowledges and
returns. That routines are lists and the dispatcher four host operations is the model's choice (assumption log 6, 13). -/
def Obligations.DispatcherRunsTheRequestedCallback : Prop :=
  ∀ s : State, s.Inv → s.host.context = .interrupt → s.host.intr.ops = dispatchOps s.params →
    (∃ t, s.hostTurns 2 = some t
        ∧ t.thread.ops = (s.callback s.seq.cbStep).body ++ [.write (s.params.base + 0x04) 0x01, .rti]
        ∧ t.callback s.seq.cbStep = (s.callback s.seq.cbStep).called
        ∧ t.trace = s.trace ++ [.cbRun s.seq.cbStep])
      ∧ (s.seq.seqState = .cbWait →
        (s.callback s.seq.cbStep).body = [] →
        ∃ t, s.hostTurns 4 = some t
          ∧ t.trace = s.trace ++ [.cbRun s.seq.cbStep, .cbDone s.seq.cbStep]
          ∧ t.seq.seqState = .idle ∧ t.scu.rst = false ∧ t.host.context = .mainline ∧ t.host.hostI = false
          ∧ t.host.main = s.host.main ∧ t.clock = s.clock)

/-- R111: setbit faults above bit 7, and otherwise reads the register and writes back the byte with one bit changed. That
the write then stands first in the thread's list is the model's choice (assumption log 6, 19). -/
def Obligations.SetbitReadsThenWritesOneBit : Prop :=
  ∀ (s : State) (off : Offset) (b : Nat) (e : Bool), s.params.Valid →
    (7 < b → s.runHostOp (.setbit off b e) = .fault .bitIndexOutOfRange)
      ∧ (b ≤ 7 →
        ∃ t v, exec (decodeRead off) s = .next t
          ∧ s.runHostOp (.setbit off b e) = .next (t.pushOps [.write (s.params.base + off.toNat) v])
          ∧ ∀ j, j < 8 → v.getLsbD j = if j = b then e else t.thread.data.getLsbD j)

/-- R112: getbit faults above bit 7, and otherwise yields one bit of the register, with the read's side effect. That it
yields in the step of the read is the model's choice (assumption log 19). -/
def Obligations.GetbitReadsOneBit : Prop :=
  ∀ (s : State) (off : Offset) (b : Nat), s.params.Valid →
    (7 < b → s.runHostOp (.getbit off b) = .fault .bitIndexOutOfRange)
      ∧ (b ≤ 7 →
        ∃ t u, exec (decodeRead off) s = .next t ∧ s.runHostOp (.getbit off b) = .next u
          ∧ u.thread.bit = t.thread.data.getLsbD b ∧ t.SameBlock u)

/-- R69: `cmd w` is a write of its low byte to CMD_LO and then of its high byte to CMD_HI. The thread's list of operations
is the model's choice (assumption log 6). -/
def Obligations.CmdPseudoWritesLowThenHigh : Prop :=
  ∀ (s : State) (w : Half) (rest : List HostOp), s.params.Valid → s.Quiet → s.thread.ops = .cmd w :: rest →
    ∃ t, s.hostTurns 1 = some t ∧ t.cmdLo.toNat = w.toNat % 256
      ∧ t.thread.ops = .write (s.params.base + 0x09) (BitVec.ofNat 8 (w.toNat / 256)) :: rest
      ∧ t.hostTurn = exec (.wrCmdHi (BitVec.ofNat 8 (w.toNat / 256))) t.dropOp

/-- R69: `rd16` and `rdraster` yield their field whole, and `setcompare` leaves COMPARE at its line and MODE_OTHER as it
was, when nothing falls between their transactions. The thread's list and results are the model's choice (assumption
log 6, 19). -/
def Obligations.PairedAccessPseudosTakeEffect : Prop :=
  ∀ (s : State) (rest : List HostOp), s.Inv →
    (∀ (off : Offset) (v : Half),
        (off, v) ∈ [((0x24 : Offset), s.metrics.totalLines), (0x26, s.metrics.measured), (0x30, s.clock.frameCounter),
          (0x32, s.clock.seconds), (0x34, s.clock.millis), (0x36, s.clock.drift)] →
        s.thread.ops = .rd16 off :: rest →
          ∃ t, s.hostTurns 2 = some t ∧ t.thread.ops = rest ∧ t.thread.value = v)
      ∧ (s.thread.ops = .rdRaster :: rest →
        ∃ t, s.hostTurns 2 = some t ∧ t.thread.ops = rest ∧ t.thread.value.toNat = s.scu.raster.toNat)
      ∧ ∀ l : Line, s.thread.ops = .setCompare l :: rest →
        ∃ t, s.hostTurns 3 = some t ∧ t.thread.ops = rest ∧ t.scu = { s.scu with compare := l }

/-- R144: waitframe reads STATUS; enabled, it polls FC until it differs from LAST_FRAME and records it; disabled, it waits
for the raster below the threshold, then at or above it, then makes one SOFT_WRAP and records the counter. The stages it
is cut into are the model's choice (assumption log 6, 19). -/
def Obligations.WaitFrameFollowsItsTwoBranches : Prop :=
  ∀ (s : State) (rest : List HostOp), s.Inv →
    let polled (t : State) : Prop :=
      (s.clock.frameCounter = s.host.lastFrame → t.thread.ops = .waitPoll :: rest ∧ t.host.lastFrame = s.host.lastFrame)
        ∧ (s.clock.frameCounter ≠ s.host.lastFrame → t.thread.ops = rest ∧ t.host.lastFrame = s.clock.frameCounter)
    let looped (t : State) : Prop :=
      t.thread.ops
        = (if s.scu.raster.toNat < s.params.pollThreshold then HostOp.waitAbove else .waitBelow) :: rest
    (s.thread.ops = .waitFrame :: rest → s.seq.enabled = true → ∃ t, s.hostTurns 3 = some t ∧ polled t)
      ∧ (s.thread.ops = .waitPoll :: rest → ∃ t, s.hostTurns 2 = some t ∧ polled t)
      ∧ (s.thread.ops = .waitFrame :: rest → s.seq.enabled = false → ∃ t, s.hostTurns 3 = some t ∧ looped t)
      ∧ (s.thread.ops = .waitBelow :: rest → ∃ t, s.hostTurns 2 = some t ∧ looped t)
      ∧ (s.thread.ops = .waitAbove :: rest → s.scu.raster.toNat < s.params.pollThreshold →
        ∃ t, s.hostTurns 2 = some t ∧ t.thread.ops = .waitAbove :: rest)
      ∧ (s.thread.ops = .waitAbove :: rest → s.params.pollThreshold ≤ s.scu.raster.toNat →
        s.seq.enabled = false → s.metrics.valid = true →
        ∃ t, s.hostTurns 6 = some t ∧ t.thread.ops = rest ∧ t.clock = s.clock.wrapped s.metrics
          ∧ t.host.lastFrame = s.clock.frameCounter + 1)
end

