-- ==== Sys2Proof/Laws/Decode.lean ====
section
/-! SUPPORT. Concatenation as arithmetic (spec/00_scope.md R9), and the fields of an assembled word
(spec/30_encoding.md R62, R63). -/

namespace Sys2Proof

/-- `{a, b}` is `a * 2^m + b` (R9). -/
theorem toNat_concat {n m : Nat} (a : BitVec n) (b : BitVec m) : (a ++ b).toNat = a.toNat * 2 ^ m + b.toNat := by
  rw [BitVec.toNat_append, ← Nat.shiftLeft_add_eq_or_of_lt b.isLt, Nat.shiftLeft_eq]

/-- A field is a quotient and a remainder (R9). -/
theorem toNat_field {n : Nat} (v : BitVec n) (lo k : Nat) : (v.extractLsb' lo k).toNat = v.toNat / 2 ^ lo % 2 ^ k := by
  rw [BitVec.extractLsb'_toNat, Nat.shiftRight_eq_div_pow]

/-- A bit is the parity of a quotient (R9). -/
theorem bit_eq {n : Nat} (v : BitVec n) (i : Nat) : v.getLsbD i = decide (v.toNat / 2 ^ i % 2 = 1) := by
  rw [BitVec.getLsbD, Nat.testBit_eq_decide_div_mod_eq]

/-- `{W, OFF, DATA}` = W * 0x4000 + OFF * 0x100 + DATA (R62). -/
theorem busWord_toNat (w : Bool) (off : Offset) (d : Byte) :
    (busWord w off d).toNat = w.toNat * 0x4000 + off.toNat * 0x100 + d.toNat := by
  have h1 : (busWord w off d).toNat = (BitVec.ofBool w ++ off).toNat * 2 ^ 8 + d.toNat := toNat_concat _ _
  have h2 : (BitVec.ofBool w ++ off).toNat = w.toNat * 2 ^ 6 + off.toNat :=
    (toNat_concat _ _).trans (by rw [BitVec.toNat_ofBool])
  rw [h1, h2]
  omega

/-- `{OP, ARG}` = OP * 0x1000 + ARG (R63). -/
theorem cmdWord_toNat (op : BitVec 4) (arg : BitVec 12) : (cmdWord op arg).toNat = op.toNat * 0x1000 + arg.toNat := by
  have h : (cmdWord op arg).toNat = op.toNat * 2 ^ 12 + arg.toNat := toNat_concat _ _
  omega

@[simp] theorem busIsWrite_busWord (w : Bool) (off : Offset) (d : Byte) : busIsWrite (busWord w off d) = w := by
  have := off.isLt; have := d.isLt
  rw [busIsWrite, bit_eq, busWord_toNat]
  cases w <;> simp only [Bool.toNat_false, Bool.toNat_true, decide_eq_true_eq, decide_eq_false_iff_not] <;> omega

@[simp] theorem busOffset_busWord (w : Bool) (off : Offset) (d : Byte) : busOffset (busWord w off d) = off := by
  have := off.isLt; have := d.isLt
  apply BitVec.eq_of_toNat_eq
  rw [busOffset, toNat_field, busWord_toNat]
  cases w <;> simp only [Bool.toNat_false, Bool.toNat_true] <;> omega

@[simp] theorem busData_busWord (w : Bool) (off : Offset) (d : Byte) : busData (busWord w off d) = d := by
  have := d.isLt
  apply BitVec.eq_of_toNat_eq
  rw [busData, toNat_field, busWord_toNat]
  omega

/-- A word is its three fields (R62). -/
theorem busWord_fields (w : BusWord) : busWord (busIsWrite w) (busOffset w) (busData w) = w := by
  have := w.isLt
  apply BitVec.eq_of_toNat_eq
  rw [busWord_toNat, busOffset, busData, toNat_field, toNat_field, busIsWrite, bit_eq]
  by_cases h : w.toNat / 2 ^ 14 % 2 = 1 <;> simp only [h, decide_true, decide_false, Bool.toNat_true, Bool.toNat_false] <;>
    omega

@[simp] theorem cmdOp_cmdWord (op : BitVec 4) (arg : BitVec 12) : cmdOp (cmdWord op arg) = op := by
  have := op.isLt; have := arg.isLt
  apply BitVec.eq_of_toNat_eq
  rw [cmdOp, toNat_field, cmdWord_toNat]
  omega

@[simp] theorem cmdArg_cmdWord (op : BitVec 4) (arg : BitVec 12) : cmdArg (cmdWord op arg) = arg := by
  have := arg.isLt
  apply BitVec.eq_of_toNat_eq
  rw [cmdArg, toNat_field, cmdWord_toNat]
  omega

/-- A read decodes by its offset alone, a write by its offset and data (R67). -/
@[simp] theorem decodeBus_busWord (w : Bool) (off : Offset) (d : Byte) :
    decodeBus (busWord w off d) = if w then decodeWrite off d else decodeRead off := by
  simp only [decodeBus, busIsWrite_busWord, busOffset_busWord, busData_busWord]

/-- A decoded read is well-formed (R109). -/
theorem decodeRead_wf : ∀ off : Offset, (decodeRead off).wf = true := by decide

/-- The offsets with a write of their own, and the ignored ones (R110). -/
theorem writeOffset_cases : ∀ off : Offset, off.toNat = 2 ∨ off.toNat = 3 ∨ off.toNat = 4 ∨ off.toNat = 5
    ∨ off.toNat = 8 ∨ off.toNat = 9 ∨ ignoredOffset off = true := by decide

/-- A decoded write is well-formed (R110). -/
theorem decodeWrite_wf (off : Offset) (d : Byte) : (decodeWrite off d).wf = true := by
  obtain h | h | h | h | h | h | h := writeOffset_cases off
  all_goals first | (simp only [decodeWrite, h, Instr.wf]; done) | skip
  unfold decodeWrite
  split <;> first | rfl | exact h

/-- Every decoded bus transaction is well-formed. -/
theorem decodeBus_wf (w : BusWord) : (decodeBus w).WellFormed := by
  unfold decodeBus Instr.WellFormed
  split
  · exact decodeWrite_wf _ _
  · exact decodeRead_wf _

end Sys2Proof
end

