-- ==== Sys2Proof/Laws/State.lean ====
section
/-! SUPPORT. One lemma per field per named update of the state, so that no proof unfolds a record update. -/

namespace Sys2Proof.Machine

/-! ### State.emit -/

@[simp] theorem State.emit_params (s : State) (e : Event) : (s.emit e).params = s.params := rfl
@[simp] theorem State.emit_scu (s : State) (e : Event) : (s.emit e).scu = s.scu := rfl
@[simp] theorem State.emit_seq (s : State) (e : Event) : (s.emit e).seq = s.seq := rfl
@[simp] theorem State.emit_err (s : State) (e : Event) : (s.emit e).err = s.err := rfl
@[simp] theorem State.emit_det (s : State) (e : Event) : (s.emit e).det = s.det := rfl
@[simp] theorem State.emit_metrics (s : State) (e : Event) : (s.emit e).metrics = s.metrics := rfl
@[simp] theorem State.emit_clock (s : State) (e : Event) : (s.emit e).clock = s.clock := rfl
@[simp] theorem State.emit_hold (s : State) (e : Event) : (s.emit e).hold = s.hold := rfl
@[simp] theorem State.emit_cmdLo (s : State) (e : Event) : (s.emit e).cmdLo = s.cmdLo := rfl
@[simp] theorem State.emit_trace (s : State) (e : Event) : (s.emit e).trace = s.trace ++ [e] := rfl
@[simp] theorem State.emit_host (s : State) (e : Event) : (s.emit e).host = s.host := rfl
@[simp] theorem State.emit_turns (s : State) (e : Event) : (s.emit e).turns = s.turns := rfl
@[simp] theorem State.emit_recurring (s : State) (e : Event) : (s.emit e).recurring = s.recurring := rfl

/-! ### State.mapThread -/

@[simp] theorem State.mapThread_params (s : State) (f : HostThread → HostThread) : (s.mapThread f).params = s.params := by
  unfold State.mapThread; split <;> rfl
@[simp] theorem State.mapThread_scu (s : State) (f : HostThread → HostThread) : (s.mapThread f).scu = s.scu := by
  unfold State.mapThread; split <;> rfl
@[simp] theorem State.mapThread_seq (s : State) (f : HostThread → HostThread) : (s.mapThread f).seq = s.seq := by
  unfold State.mapThread; split <;> rfl
@[simp] theorem State.mapThread_err (s : State) (f : HostThread → HostThread) : (s.mapThread f).err = s.err := by
  unfold State.mapThread; split <;> rfl
@[simp] theorem State.mapThread_det (s : State) (f : HostThread → HostThread) : (s.mapThread f).det = s.det := by
  unfold State.mapThread; split <;> rfl
@[simp] theorem State.mapThread_metrics (s : State) (f : HostThread → HostThread) : (s.mapThread f).metrics = s.metrics := by
  unfold State.mapThread; split <;> rfl
@[simp] theorem State.mapThread_clock (s : State) (f : HostThread → HostThread) : (s.mapThread f).clock = s.clock := by
  unfold State.mapThread; split <;> rfl
@[simp] theorem State.mapThread_hold (s : State) (f : HostThread → HostThread) : (s.mapThread f).hold = s.hold := by
  unfold State.mapThread; split <;> rfl
@[simp] theorem State.mapThread_cmdLo (s : State) (f : HostThread → HostThread) : (s.mapThread f).cmdLo = s.cmdLo := by
  unfold State.mapThread; split <;> rfl
@[simp] theorem State.mapThread_trace (s : State) (f : HostThread → HostThread) : (s.mapThread f).trace = s.trace := by
  unfold State.mapThread; split <;> rfl
@[simp] theorem State.mapThread_turns (s : State) (f : HostThread → HostThread) : (s.mapThread f).turns = s.turns := by
  unfold State.mapThread; split <;> rfl
@[simp] theorem State.mapThread_recurring (s : State) (f : HostThread → HostThread) : (s.mapThread f).recurring = s.recurring := by
  unfold State.mapThread; split <;> rfl

@[simp] theorem State.mapThread_host_hostI (s : State) (f : HostThread → HostThread) :
    (s.mapThread f).host.hostI = s.host.hostI := by
  unfold State.mapThread; split <;> rfl
@[simp] theorem State.mapThread_host_context (s : State) (f : HostThread → HostThread) :
    (s.mapThread f).host.context = s.host.context := by
  unfold State.mapThread; split <;> rfl
@[simp] theorem State.mapThread_host_lastFrame (s : State) (f : HostThread → HostThread) :
    (s.mapThread f).host.lastFrame = s.host.lastFrame := by
  unfold State.mapThread; split <;> rfl
@[simp] theorem State.mapThread_host_hostCb (s : State) (f : HostThread → HostThread) :
    (s.mapThread f).host.hostCb = s.host.hostCb := by
  unfold State.mapThread; split <;> rfl
@[simp] theorem State.mapThread_host_hostRaw (s : State) (f : HostThread → HostThread) :
    (s.mapThread f).host.hostRaw = s.host.hostRaw := by
  unfold State.mapThread; split <;> rfl
@[simp] theorem State.mapThread_host_mainLoop (s : State) (f : HostThread → HostThread) :
    (s.mapThread f).host.mainLoop = s.host.mainLoop := by
  unfold State.mapThread; split <;> rfl
@[simp] theorem State.mapThread_host_romDisabled (s : State) (f : HostThread → HostThread) :
    (s.mapThread f).host.romDisabled = s.host.romDisabled := by
  unfold State.mapThread; split <;> rfl
@[simp] theorem State.mapThread_thread (s : State) (f : HostThread → HostThread) :
    (s.mapThread f).thread = f s.thread := by
  cases h : s.host.context <;> simp [State.mapThread, State.thread, h]

/-! ### State.returnByte -/

@[simp] theorem State.returnByte_params (s : State) (d : Byte) : (s.returnByte d).params = s.params := State.mapThread_params s _
@[simp] theorem State.returnByte_scu (s : State) (d : Byte) : (s.returnByte d).scu = s.scu := State.mapThread_scu s _
@[simp] theorem State.returnByte_seq (s : State) (d : Byte) : (s.returnByte d).seq = s.seq := State.mapThread_seq s _
@[simp] theorem State.returnByte_err (s : State) (d : Byte) : (s.returnByte d).err = s.err := State.mapThread_err s _
@[simp] theorem State.returnByte_det (s : State) (d : Byte) : (s.returnByte d).det = s.det := State.mapThread_det s _
@[simp] theorem State.returnByte_metrics (s : State) (d : Byte) : (s.returnByte d).metrics = s.metrics := State.mapThread_metrics s _
@[simp] theorem State.returnByte_clock (s : State) (d : Byte) : (s.returnByte d).clock = s.clock := State.mapThread_clock s _
@[simp] theorem State.returnByte_hold (s : State) (d : Byte) : (s.returnByte d).hold = s.hold := State.mapThread_hold s _
@[simp] theorem State.returnByte_cmdLo (s : State) (d : Byte) : (s.returnByte d).cmdLo = s.cmdLo := State.mapThread_cmdLo s _
@[simp] theorem State.returnByte_trace (s : State) (d : Byte) : (s.returnByte d).trace = s.trace := State.mapThread_trace s _
@[simp] theorem State.returnByte_turns (s : State) (d : Byte) : (s.returnByte d).turns = s.turns := State.mapThread_turns s _
@[simp] theorem State.returnByte_recurring (s : State) (d : Byte) : (s.returnByte d).recurring = s.recurring := State.mapThread_recurring s _
@[simp] theorem State.returnByte_host_hostI (s : State) (d : Byte) : (s.returnByte d).host.hostI = s.host.hostI :=
  State.mapThread_host_hostI s _
@[simp] theorem State.returnByte_host_context (s : State) (d : Byte) : (s.returnByte d).host.context = s.host.context :=
  State.mapThread_host_context s _
@[simp] theorem State.returnByte_host_lastFrame (s : State) (d : Byte) : (s.returnByte d).host.lastFrame = s.host.lastFrame :=
  State.mapThread_host_lastFrame s _
@[simp] theorem State.returnByte_host_hostCb (s : State) (d : Byte) : (s.returnByte d).host.hostCb = s.host.hostCb :=
  State.mapThread_host_hostCb s _
@[simp] theorem State.returnByte_host_hostRaw (s : State) (d : Byte) : (s.returnByte d).host.hostRaw = s.host.hostRaw :=
  State.mapThread_host_hostRaw s _
@[simp] theorem State.returnByte_host_mainLoop (s : State) (d : Byte) : (s.returnByte d).host.mainLoop = s.host.mainLoop :=
  State.mapThread_host_mainLoop s _
@[simp] theorem State.returnByte_host_romDisabled (s : State) (d : Byte) : (s.returnByte d).host.romDisabled = s.host.romDisabled :=
  State.mapThread_host_romDisabled s _
@[simp] theorem State.returnByte_thread (s : State) (d : Byte) : (s.returnByte d).thread = { s.thread with data := d } :=
  State.mapThread_thread s _

/-! ### State.pushOps -/

@[simp] theorem State.pushOps_params (s : State) (os : List HostOp) : (s.pushOps os).params = s.params := State.mapThread_params s _
@[simp] theorem State.pushOps_scu (s : State) (os : List HostOp) : (s.pushOps os).scu = s.scu := State.mapThread_scu s _
@[simp] theorem State.pushOps_seq (s : State) (os : List HostOp) : (s.pushOps os).seq = s.seq := State.mapThread_seq s _
@[simp] theorem State.pushOps_err (s : State) (os : List HostOp) : (s.pushOps os).err = s.err := State.mapThread_err s _
@[simp] theorem State.pushOps_det (s : State) (os : List HostOp) : (s.pushOps os).det = s.det := State.mapThread_det s _
@[simp] theorem State.pushOps_metrics (s : State) (os : List HostOp) : (s.pushOps os).metrics = s.metrics := State.mapThread_metrics s _
@[simp] theorem State.pushOps_clock (s : State) (os : List HostOp) : (s.pushOps os).clock = s.clock := State.mapThread_clock s _
@[simp] theorem State.pushOps_hold (s : State) (os : List HostOp) : (s.pushOps os).hold = s.hold := State.mapThread_hold s _
@[simp] theorem State.pushOps_cmdLo (s : State) (os : List HostOp) : (s.pushOps os).cmdLo = s.cmdLo := State.mapThread_cmdLo s _
@[simp] theorem State.pushOps_trace (s : State) (os : List HostOp) : (s.pushOps os).trace = s.trace := State.mapThread_trace s _
@[simp] theorem State.pushOps_turns (s : State) (os : List HostOp) : (s.pushOps os).turns = s.turns := State.mapThread_turns s _
@[simp] theorem State.pushOps_recurring (s : State) (os : List HostOp) : (s.pushOps os).recurring = s.recurring := State.mapThread_recurring s _
@[simp] theorem State.pushOps_host_hostI (s : State) (os : List HostOp) : (s.pushOps os).host.hostI = s.host.hostI :=
  State.mapThread_host_hostI s _
@[simp] theorem State.pushOps_host_context (s : State) (os : List HostOp) : (s.pushOps os).host.context = s.host.context :=
  State.mapThread_host_context s _
@[simp] theorem State.pushOps_host_lastFrame (s : State) (os : List HostOp) : (s.pushOps os).host.lastFrame = s.host.lastFrame :=
  State.mapThread_host_lastFrame s _
@[simp] theorem State.pushOps_host_hostCb (s : State) (os : List HostOp) : (s.pushOps os).host.hostCb = s.host.hostCb :=
  State.mapThread_host_hostCb s _
@[simp] theorem State.pushOps_host_hostRaw (s : State) (os : List HostOp) : (s.pushOps os).host.hostRaw = s.host.hostRaw :=
  State.mapThread_host_hostRaw s _
@[simp] theorem State.pushOps_host_mainLoop (s : State) (os : List HostOp) : (s.pushOps os).host.mainLoop = s.host.mainLoop :=
  State.mapThread_host_mainLoop s _
@[simp] theorem State.pushOps_host_romDisabled (s : State) (os : List HostOp) : (s.pushOps os).host.romDisabled = s.host.romDisabled :=
  State.mapThread_host_romDisabled s _
@[simp] theorem State.pushOps_thread (s : State) (os : List HostOp) : (s.pushOps os).thread = { s.thread with ops := os ++ s.thread.ops } :=
  State.mapThread_thread s _

/-! ### State.yieldValue -/

@[simp] theorem State.yieldValue_params (s : State) (v : Half) : (s.yieldValue v).params = s.params := State.mapThread_params s _
@[simp] theorem State.yieldValue_scu (s : State) (v : Half) : (s.yieldValue v).scu = s.scu := State.mapThread_scu s _
@[simp] theorem State.yieldValue_seq (s : State) (v : Half) : (s.yieldValue v).seq = s.seq := State.mapThread_seq s _
@[simp] theorem State.yieldValue_err (s : State) (v : Half) : (s.yieldValue v).err = s.err := State.mapThread_err s _
@[simp] theorem State.yieldValue_det (s : State) (v : Half) : (s.yieldValue v).det = s.det := State.mapThread_det s _
@[simp] theorem State.yieldValue_metrics (s : State) (v : Half) : (s.yieldValue v).metrics = s.metrics := State.mapThread_metrics s _
@[simp] theorem State.yieldValue_clock (s : State) (v : Half) : (s.yieldValue v).clock = s.clock := State.mapThread_clock s _
@[simp] theorem State.yieldValue_hold (s : State) (v : Half) : (s.yieldValue v).hold = s.hold := State.mapThread_hold s _
@[simp] theorem State.yieldValue_cmdLo (s : State) (v : Half) : (s.yieldValue v).cmdLo = s.cmdLo := State.mapThread_cmdLo s _
@[simp] theorem State.yieldValue_trace (s : State) (v : Half) : (s.yieldValue v).trace = s.trace := State.mapThread_trace s _
@[simp] theorem State.yieldValue_turns (s : State) (v : Half) : (s.yieldValue v).turns = s.turns := State.mapThread_turns s _
@[simp] theorem State.yieldValue_recurring (s : State) (v : Half) : (s.yieldValue v).recurring = s.recurring := State.mapThread_recurring s _
@[simp] theorem State.yieldValue_host_hostI (s : State) (v : Half) : (s.yieldValue v).host.hostI = s.host.hostI :=
  State.mapThread_host_hostI s _
@[simp] theorem State.yieldValue_host_context (s : State) (v : Half) : (s.yieldValue v).host.context = s.host.context :=
  State.mapThread_host_context s _
@[simp] theorem State.yieldValue_host_lastFrame (s : State) (v : Half) : (s.yieldValue v).host.lastFrame = s.host.lastFrame :=
  State.mapThread_host_lastFrame s _
@[simp] theorem State.yieldValue_host_hostCb (s : State) (v : Half) : (s.yieldValue v).host.hostCb = s.host.hostCb :=
  State.mapThread_host_hostCb s _
@[simp] theorem State.yieldValue_host_hostRaw (s : State) (v : Half) : (s.yieldValue v).host.hostRaw = s.host.hostRaw :=
  State.mapThread_host_hostRaw s _
@[simp] theorem State.yieldValue_host_mainLoop (s : State) (v : Half) : (s.yieldValue v).host.mainLoop = s.host.mainLoop :=
  State.mapThread_host_mainLoop s _
@[simp] theorem State.yieldValue_host_romDisabled (s : State) (v : Half) : (s.yieldValue v).host.romDisabled = s.host.romDisabled :=
  State.mapThread_host_romDisabled s _
@[simp] theorem State.yieldValue_thread (s : State) (v : Half) : (s.yieldValue v).thread = { s.thread with value := v } :=
  State.mapThread_thread s _

/-! ### State.yieldBit -/

@[simp] theorem State.yieldBit_params (s : State) (b : Bool) : (s.yieldBit b).params = s.params := State.mapThread_params s _
@[simp] theorem State.yieldBit_scu (s : State) (b : Bool) : (s.yieldBit b).scu = s.scu := State.mapThread_scu s _
@[simp] theorem State.yieldBit_seq (s : State) (b : Bool) : (s.yieldBit b).seq = s.seq := State.mapThread_seq s _
@[simp] theorem State.yieldBit_err (s : State) (b : Bool) : (s.yieldBit b).err = s.err := State.mapThread_err s _
@[simp] theorem State.yieldBit_det (s : State) (b : Bool) : (s.yieldBit b).det = s.det := State.mapThread_det s _
@[simp] theorem State.yieldBit_metrics (s : State) (b : Bool) : (s.yieldBit b).metrics = s.metrics := State.mapThread_metrics s _
@[simp] theorem State.yieldBit_clock (s : State) (b : Bool) : (s.yieldBit b).clock = s.clock := State.mapThread_clock s _
@[simp] theorem State.yieldBit_hold (s : State) (b : Bool) : (s.yieldBit b).hold = s.hold := State.mapThread_hold s _
@[simp] theorem State.yieldBit_cmdLo (s : State) (b : Bool) : (s.yieldBit b).cmdLo = s.cmdLo := State.mapThread_cmdLo s _
@[simp] theorem State.yieldBit_trace (s : State) (b : Bool) : (s.yieldBit b).trace = s.trace := State.mapThread_trace s _
@[simp] theorem State.yieldBit_turns (s : State) (b : Bool) : (s.yieldBit b).turns = s.turns := State.mapThread_turns s _
@[simp] theorem State.yieldBit_recurring (s : State) (b : Bool) : (s.yieldBit b).recurring = s.recurring := State.mapThread_recurring s _
@[simp] theorem State.yieldBit_host_hostI (s : State) (b : Bool) : (s.yieldBit b).host.hostI = s.host.hostI :=
  State.mapThread_host_hostI s _
@[simp] theorem State.yieldBit_host_context (s : State) (b : Bool) : (s.yieldBit b).host.context = s.host.context :=
  State.mapThread_host_context s _
@[simp] theorem State.yieldBit_host_lastFrame (s : State) (b : Bool) : (s.yieldBit b).host.lastFrame = s.host.lastFrame :=
  State.mapThread_host_lastFrame s _
@[simp] theorem State.yieldBit_host_hostCb (s : State) (b : Bool) : (s.yieldBit b).host.hostCb = s.host.hostCb :=
  State.mapThread_host_hostCb s _
@[simp] theorem State.yieldBit_host_hostRaw (s : State) (b : Bool) : (s.yieldBit b).host.hostRaw = s.host.hostRaw :=
  State.mapThread_host_hostRaw s _
@[simp] theorem State.yieldBit_host_mainLoop (s : State) (b : Bool) : (s.yieldBit b).host.mainLoop = s.host.mainLoop :=
  State.mapThread_host_mainLoop s _
@[simp] theorem State.yieldBit_host_romDisabled (s : State) (b : Bool) : (s.yieldBit b).host.romDisabled = s.host.romDisabled :=
  State.mapThread_host_romDisabled s _
@[simp] theorem State.yieldBit_thread (s : State) (b : Bool) : (s.yieldBit b).thread = { s.thread with bit := b } :=
  State.mapThread_thread s _

/-! ### State.dropOp -/

@[simp] theorem State.dropOp_params (s : State) : (s.dropOp).params = s.params := State.mapThread_params s _
@[simp] theorem State.dropOp_scu (s : State) : (s.dropOp).scu = s.scu := State.mapThread_scu s _
@[simp] theorem State.dropOp_seq (s : State) : (s.dropOp).seq = s.seq := State.mapThread_seq s _
@[simp] theorem State.dropOp_err (s : State) : (s.dropOp).err = s.err := State.mapThread_err s _
@[simp] theorem State.dropOp_det (s : State) : (s.dropOp).det = s.det := State.mapThread_det s _
@[simp] theorem State.dropOp_metrics (s : State) : (s.dropOp).metrics = s.metrics := State.mapThread_metrics s _
@[simp] theorem State.dropOp_clock (s : State) : (s.dropOp).clock = s.clock := State.mapThread_clock s _
@[simp] theorem State.dropOp_hold (s : State) : (s.dropOp).hold = s.hold := State.mapThread_hold s _
@[simp] theorem State.dropOp_cmdLo (s : State) : (s.dropOp).cmdLo = s.cmdLo := State.mapThread_cmdLo s _
@[simp] theorem State.dropOp_trace (s : State) : (s.dropOp).trace = s.trace := State.mapThread_trace s _
@[simp] theorem State.dropOp_turns (s : State) : (s.dropOp).turns = s.turns := State.mapThread_turns s _
@[simp] theorem State.dropOp_recurring (s : State) : (s.dropOp).recurring = s.recurring := State.mapThread_recurring s _
@[simp] theorem State.dropOp_host_hostI (s : State) : (s.dropOp).host.hostI = s.host.hostI :=
  State.mapThread_host_hostI s _
@[simp] theorem State.dropOp_host_context (s : State) : (s.dropOp).host.context = s.host.context :=
  State.mapThread_host_context s _
@[simp] theorem State.dropOp_host_lastFrame (s : State) : (s.dropOp).host.lastFrame = s.host.lastFrame :=
  State.mapThread_host_lastFrame s _
@[simp] theorem State.dropOp_host_hostCb (s : State) : (s.dropOp).host.hostCb = s.host.hostCb :=
  State.mapThread_host_hostCb s _
@[simp] theorem State.dropOp_host_hostRaw (s : State) : (s.dropOp).host.hostRaw = s.host.hostRaw :=
  State.mapThread_host_hostRaw s _
@[simp] theorem State.dropOp_host_mainLoop (s : State) : (s.dropOp).host.mainLoop = s.host.mainLoop :=
  State.mapThread_host_mainLoop s _
@[simp] theorem State.dropOp_host_romDisabled (s : State) : (s.dropOp).host.romDisabled = s.host.romDisabled :=
  State.mapThread_host_romDisabled s _
@[simp] theorem State.dropOp_thread (s : State) : (s.dropOp).thread = { s.thread with ops := s.thread.ops.tail } :=
  State.mapThread_thread s _

/-! ### State.raiseError -/

@[simp] theorem State.raiseError_params (s : State) (e : BlockError) : (s.raiseError e).params = s.params := rfl
@[simp] theorem State.raiseError_scu (s : State) (e : BlockError) : (s.raiseError e).scu = s.scu := rfl
@[simp] theorem State.raiseError_seq (s : State) (e : BlockError) : (s.raiseError e).seq = s.seq := rfl
@[simp] theorem State.raiseError_err (s : State) (e : BlockError) : (s.raiseError e).err = { flag := true, code := if s.err.flag then s.err.code else e.code } := rfl
@[simp] theorem State.raiseError_det (s : State) (e : BlockError) : (s.raiseError e).det = s.det := rfl
@[simp] theorem State.raiseError_metrics (s : State) (e : BlockError) : (s.raiseError e).metrics = s.metrics := rfl
@[simp] theorem State.raiseError_clock (s : State) (e : BlockError) : (s.raiseError e).clock = s.clock := rfl
@[simp] theorem State.raiseError_hold (s : State) (e : BlockError) : (s.raiseError e).hold = s.hold := rfl
@[simp] theorem State.raiseError_cmdLo (s : State) (e : BlockError) : (s.raiseError e).cmdLo = s.cmdLo := rfl
@[simp] theorem State.raiseError_trace (s : State) (e : BlockError) : (s.raiseError e).trace = s.trace ++ [.error e] := rfl
@[simp] theorem State.raiseError_host (s : State) (e : BlockError) : (s.raiseError e).host = s.host := rfl
@[simp] theorem State.raiseError_turns (s : State) (e : BlockError) : (s.raiseError e).turns = s.turns := rfl
@[simp] theorem State.raiseError_recurring (s : State) (e : BlockError) : (s.raiseError e).recurring = s.recurring := rfl

/-! ### State.wrap -/

@[simp] theorem State.wrap_params (s : State) : (s.wrap).params = s.params := rfl
@[simp] theorem State.wrap_scu (s : State) : (s.wrap).scu = s.scu := rfl
@[simp] theorem State.wrap_seq (s : State) : (s.wrap).seq = s.seq := rfl
@[simp] theorem State.wrap_err (s : State) : (s.wrap).err = s.err := rfl
@[simp] theorem State.wrap_det (s : State) : (s.wrap).det = s.det := rfl
@[simp] theorem State.wrap_metrics (s : State) : (s.wrap).metrics = s.metrics := rfl
@[simp] theorem State.wrap_clock (s : State) : (s.wrap).clock = s.clock.wrapped s.metrics := rfl
@[simp] theorem State.wrap_hold (s : State) : (s.wrap).hold = s.hold := rfl
@[simp] theorem State.wrap_cmdLo (s : State) : (s.wrap).cmdLo = s.cmdLo := rfl
@[simp] theorem State.wrap_trace (s : State) : (s.wrap).trace = s.trace ++ [.wrap (s.clock.wrapped s.metrics).frameCounter] := rfl
@[simp] theorem State.wrap_host (s : State) : (s.wrap).host = s.host := rfl
@[simp] theorem State.wrap_turns (s : State) : (s.wrap).turns = s.turns := rfl
@[simp] theorem State.wrap_recurring (s : State) : (s.wrap).recurring = s.recurring := rfl

/-! ### State.requestCallback -/

@[simp] theorem State.requestCallback_params (s : State) (k : StepIndex) : (s.requestCallback k).params = s.params := rfl
@[simp] theorem State.requestCallback_scu (s : State) (k : StepIndex) : (s.requestCallback k).scu = s.scu := rfl
@[simp] theorem State.requestCallback_seq (s : State) (k : StepIndex) : (s.requestCallback k).seq = { s.seq with cbStep := k, seqState := .cbWait } := rfl
@[simp] theorem State.requestCallback_err (s : State) (k : StepIndex) : (s.requestCallback k).err = s.err := rfl
@[simp] theorem State.requestCallback_det (s : State) (k : StepIndex) : (s.requestCallback k).det = s.det := rfl
@[simp] theorem State.requestCallback_metrics (s : State) (k : StepIndex) : (s.requestCallback k).metrics = s.metrics := rfl
@[simp] theorem State.requestCallback_clock (s : State) (k : StepIndex) : (s.requestCallback k).clock = s.clock := rfl
@[simp] theorem State.requestCallback_hold (s : State) (k : StepIndex) : (s.requestCallback k).hold = s.hold := rfl
@[simp] theorem State.requestCallback_cmdLo (s : State) (k : StepIndex) : (s.requestCallback k).cmdLo = s.cmdLo := rfl
@[simp] theorem State.requestCallback_trace (s : State) (k : StepIndex) : (s.requestCallback k).trace = s.trace ++ [.cbRequest k] := rfl
@[simp] theorem State.requestCallback_host (s : State) (k : StepIndex) : (s.requestCallback k).host = s.host := rfl
@[simp] theorem State.requestCallback_turns (s : State) (k : StepIndex) : (s.requestCallback k).turns = s.turns := rfl
@[simp] theorem State.requestCallback_recurring (s : State) (k : StepIndex) : (s.requestCallback k).recurring = s.recurring := rfl

/-! ### State.selfAck -/

@[simp] theorem State.selfAck_params (s : State) : (s.selfAck).params = s.params := rfl
@[simp] theorem State.selfAck_scu (s : State) : (s.selfAck).scu = { s.scu with rst := false } := rfl
@[simp] theorem State.selfAck_seq (s : State) : (s.selfAck).seq = s.seq := rfl
@[simp] theorem State.selfAck_err (s : State) : (s.selfAck).err = s.err := rfl
@[simp] theorem State.selfAck_det (s : State) : (s.selfAck).det = s.det := rfl
@[simp] theorem State.selfAck_metrics (s : State) : (s.selfAck).metrics = s.metrics := rfl
@[simp] theorem State.selfAck_clock (s : State) : (s.selfAck).clock = s.clock := rfl
@[simp] theorem State.selfAck_hold (s : State) : (s.selfAck).hold = s.hold := rfl
@[simp] theorem State.selfAck_cmdLo (s : State) : (s.selfAck).cmdLo = s.cmdLo := rfl
@[simp] theorem State.selfAck_trace (s : State) : (s.selfAck).trace = s.trace ++ [.selfAck] := rfl
@[simp] theorem State.selfAck_host (s : State) : (s.selfAck).host = s.host := rfl
@[simp] theorem State.selfAck_turns (s : State) : (s.selfAck).turns = s.turns := rfl
@[simp] theorem State.selfAck_recurring (s : State) : (s.selfAck).recurring = s.recurring := rfl

/-! ### State.rearm -/

@[simp] theorem State.rearm_params (s : State) : (s.rearm).params = s.params := rfl
@[simp] theorem State.rearm_scu (s : State) : (s.rearm).scu = { s.scu with compare := (s.stepAt s.nextIndex).line } := rfl
@[simp] theorem State.rearm_seq (s : State) : (s.rearm).seq = { s.seq with curIndex := s.nextIndex } := rfl
@[simp] theorem State.rearm_err (s : State) : (s.rearm).err = s.err := rfl
@[simp] theorem State.rearm_det (s : State) : (s.rearm).det = s.det := rfl
@[simp] theorem State.rearm_metrics (s : State) : (s.rearm).metrics = s.metrics := rfl
@[simp] theorem State.rearm_clock (s : State) : (s.rearm).clock = s.clock := rfl
@[simp] theorem State.rearm_hold (s : State) : (s.rearm).hold = s.hold := rfl
@[simp] theorem State.rearm_cmdLo (s : State) : (s.rearm).cmdLo = s.cmdLo := rfl
@[simp] theorem State.rearm_trace (s : State) : (s.rearm).trace = s.trace := rfl
@[simp] theorem State.rearm_host (s : State) : (s.rearm).host = s.host := rfl
@[simp] theorem State.rearm_turns (s : State) : (s.rearm).turns = s.turns := rfl
@[simp] theorem State.rearm_recurring (s : State) : (s.rearm).recurring = s.recurring := rfl

/-! ### State.advanceRaster -/

@[simp] theorem State.advanceRaster_params (s : State) : (s.advanceRaster).params = s.params := rfl
@[simp] theorem State.advanceRaster_scu (s : State) : (s.advanceRaster).scu = { s.scu with raster := BitVec.ofNat 9 ((s.scu.raster.toNat + 1) % s.params.hwLines) } := rfl
@[simp] theorem State.advanceRaster_seq (s : State) : (s.advanceRaster).seq = s.seq := rfl
@[simp] theorem State.advanceRaster_err (s : State) : (s.advanceRaster).err = s.err := rfl
@[simp] theorem State.advanceRaster_det (s : State) : (s.advanceRaster).det = s.det := rfl
@[simp] theorem State.advanceRaster_metrics (s : State) : (s.advanceRaster).metrics = s.metrics := rfl
@[simp] theorem State.advanceRaster_clock (s : State) : (s.advanceRaster).clock = s.clock := rfl
@[simp] theorem State.advanceRaster_hold (s : State) : (s.advanceRaster).hold = s.hold := rfl
@[simp] theorem State.advanceRaster_cmdLo (s : State) : (s.advanceRaster).cmdLo = s.cmdLo := rfl
@[simp] theorem State.advanceRaster_trace (s : State) : (s.advanceRaster).trace = s.trace := rfl
@[simp] theorem State.advanceRaster_host (s : State) : (s.advanceRaster).host = s.host := rfl
@[simp] theorem State.advanceRaster_turns (s : State) : (s.advanceRaster).turns = s.turns := rfl
@[simp] theorem State.advanceRaster_recurring (s : State) : (s.advanceRaster).recurring = s.recurring := rfl

/-! ### State.runDisable -/

@[simp] theorem State.runDisable_params (s : State) : (s.runDisable).params = s.params := rfl
@[simp] theorem State.runDisable_scu (s : State) : (s.runDisable).scu = { s.scu with irqEnRst := false } := rfl
@[simp] theorem State.runDisable_seq (s : State) : (s.runDisable).seq = { s.seq with enabled := false, seqState := .idle } := rfl
@[simp] theorem State.runDisable_err (s : State) : (s.runDisable).err = s.err := rfl
@[simp] theorem State.runDisable_det (s : State) : (s.runDisable).det = s.det := rfl
@[simp] theorem State.runDisable_metrics (s : State) : (s.runDisable).metrics = s.metrics := rfl
@[simp] theorem State.runDisable_clock (s : State) : (s.runDisable).clock = s.clock := rfl
@[simp] theorem State.runDisable_hold (s : State) : (s.runDisable).hold = s.hold := rfl
@[simp] theorem State.runDisable_cmdLo (s : State) : (s.runDisable).cmdLo = s.cmdLo := rfl
@[simp] theorem State.runDisable_trace (s : State) : (s.runDisable).trace = s.trace := rfl
@[simp] theorem State.runDisable_host (s : State) : (s.runDisable).host = s.host := rfl
@[simp] theorem State.runDisable_turns (s : State) : (s.runDisable).turns = s.turns := rfl
@[simp] theorem State.runDisable_recurring (s : State) : (s.runDisable).recurring = s.recurring := rfl

/-! ### State.runSetDebug -/

@[simp] theorem State.runSetDebug_params (s : State) (d : Bool) : (s.runSetDebug d).params = s.params := rfl
@[simp] theorem State.runSetDebug_scu (s : State) (d : Bool) : (s.runSetDebug d).scu = s.scu := rfl
@[simp] theorem State.runSetDebug_seq (s : State) (d : Bool) : (s.runSetDebug d).seq = { s.seq with debug := d } := rfl
@[simp] theorem State.runSetDebug_err (s : State) (d : Bool) : (s.runSetDebug d).err = s.err := rfl
@[simp] theorem State.runSetDebug_det (s : State) (d : Bool) : (s.runSetDebug d).det = s.det := rfl
@[simp] theorem State.runSetDebug_metrics (s : State) (d : Bool) : (s.runSetDebug d).metrics = s.metrics := rfl
@[simp] theorem State.runSetDebug_clock (s : State) (d : Bool) : (s.runSetDebug d).clock = s.clock := rfl
@[simp] theorem State.runSetDebug_hold (s : State) (d : Bool) : (s.runSetDebug d).hold = s.hold := rfl
@[simp] theorem State.runSetDebug_cmdLo (s : State) (d : Bool) : (s.runSetDebug d).cmdLo = s.cmdLo := rfl
@[simp] theorem State.runSetDebug_trace (s : State) (d : Bool) : (s.runSetDebug d).trace = s.trace := rfl
@[simp] theorem State.runSetDebug_host (s : State) (d : Bool) : (s.runSetDebug d).host = s.host := rfl
@[simp] theorem State.runSetDebug_turns (s : State) (d : Bool) : (s.runSetDebug d).turns = s.turns := rfl
@[simp] theorem State.runSetDebug_recurring (s : State) (d : Bool) : (s.runSetDebug d).recurring = s.recurring := rfl

/-! ### State.setHostI -/

@[simp] theorem State.setHostI_params (s : State) (v : Bool) : (s.setHostI v).params = s.params := rfl
@[simp] theorem State.setHostI_scu (s : State) (v : Bool) : (s.setHostI v).scu = s.scu := rfl
@[simp] theorem State.setHostI_seq (s : State) (v : Bool) : (s.setHostI v).seq = s.seq := rfl
@[simp] theorem State.setHostI_err (s : State) (v : Bool) : (s.setHostI v).err = s.err := rfl
@[simp] theorem State.setHostI_det (s : State) (v : Bool) : (s.setHostI v).det = s.det := rfl
@[simp] theorem State.setHostI_metrics (s : State) (v : Bool) : (s.setHostI v).metrics = s.metrics := rfl
@[simp] theorem State.setHostI_clock (s : State) (v : Bool) : (s.setHostI v).clock = s.clock := rfl
@[simp] theorem State.setHostI_hold (s : State) (v : Bool) : (s.setHostI v).hold = s.hold := rfl
@[simp] theorem State.setHostI_cmdLo (s : State) (v : Bool) : (s.setHostI v).cmdLo = s.cmdLo := rfl
@[simp] theorem State.setHostI_trace (s : State) (v : Bool) : (s.setHostI v).trace = s.trace := rfl
@[simp] theorem State.setHostI_host (s : State) (v : Bool) : (s.setHostI v).host = { s.host with hostI := v } := rfl
@[simp] theorem State.setHostI_turns (s : State) (v : Bool) : (s.setHostI v).turns = s.turns := rfl
@[simp] theorem State.setHostI_recurring (s : State) (v : Bool) : (s.setHostI v).recurring = s.recurring := rfl

/-! ### State.setLastFrame -/

@[simp] theorem State.setLastFrame_params (s : State) (f : Half) : (s.setLastFrame f).params = s.params := rfl
@[simp] theorem State.setLastFrame_scu (s : State) (f : Half) : (s.setLastFrame f).scu = s.scu := rfl
@[simp] theorem State.setLastFrame_seq (s : State) (f : Half) : (s.setLastFrame f).seq = s.seq := rfl
@[simp] theorem State.setLastFrame_err (s : State) (f : Half) : (s.setLastFrame f).err = s.err := rfl
@[simp] theorem State.setLastFrame_det (s : State) (f : Half) : (s.setLastFrame f).det = s.det := rfl
@[simp] theorem State.setLastFrame_metrics (s : State) (f : Half) : (s.setLastFrame f).metrics = s.metrics := rfl
@[simp] theorem State.setLastFrame_clock (s : State) (f : Half) : (s.setLastFrame f).clock = s.clock := rfl
@[simp] theorem State.setLastFrame_hold (s : State) (f : Half) : (s.setLastFrame f).hold = s.hold := rfl
@[simp] theorem State.setLastFrame_cmdLo (s : State) (f : Half) : (s.setLastFrame f).cmdLo = s.cmdLo := rfl
@[simp] theorem State.setLastFrame_trace (s : State) (f : Half) : (s.setLastFrame f).trace = s.trace := rfl
@[simp] theorem State.setLastFrame_host (s : State) (f : Half) : (s.setLastFrame f).host = { s.host with lastFrame := f } := rfl
@[simp] theorem State.setLastFrame_turns (s : State) (f : Half) : (s.setLastFrame f).turns = s.turns := rfl
@[simp] theorem State.setLastFrame_recurring (s : State) (f : Half) : (s.setLastFrame f).recurring = s.recurring := rfl

/-! ### State.setRom -/

@[simp] theorem State.setRom_params (s : State) (v : Bool) : (s.setRom v).params = s.params := rfl
@[simp] theorem State.setRom_scu (s : State) (v : Bool) : (s.setRom v).scu = s.scu := rfl
@[simp] theorem State.setRom_seq (s : State) (v : Bool) : (s.setRom v).seq = s.seq := rfl
@[simp] theorem State.setRom_err (s : State) (v : Bool) : (s.setRom v).err = s.err := rfl
@[simp] theorem State.setRom_det (s : State) (v : Bool) : (s.setRom v).det = s.det := rfl
@[simp] theorem State.setRom_metrics (s : State) (v : Bool) : (s.setRom v).metrics = s.metrics := rfl
@[simp] theorem State.setRom_clock (s : State) (v : Bool) : (s.setRom v).clock = s.clock := rfl
@[simp] theorem State.setRom_hold (s : State) (v : Bool) : (s.setRom v).hold = s.hold := rfl
@[simp] theorem State.setRom_cmdLo (s : State) (v : Bool) : (s.setRom v).cmdLo = s.cmdLo := rfl
@[simp] theorem State.setRom_trace (s : State) (v : Bool) : (s.setRom v).trace = s.trace := rfl
@[simp] theorem State.setRom_host (s : State) (v : Bool) : (s.setRom v).host = { s.host with romDisabled := v } := rfl
@[simp] theorem State.setRom_turns (s : State) (v : Bool) : (s.setRom v).turns = s.turns := rfl
@[simp] theorem State.setRom_recurring (s : State) (v : Bool) : (s.setRom v).recurring = s.recurring := rfl

/-! ### State.withDebug -/

@[simp] theorem State.withDebug_params (s : State) (b : Bool) : (s.withDebug b).params = s.params := rfl
@[simp] theorem State.withDebug_scu (s : State) (b : Bool) : (s.withDebug b).scu = s.scu := rfl
@[simp] theorem State.withDebug_seq (s : State) (b : Bool) : (s.withDebug b).seq = { s.seq with debug := b } := rfl
@[simp] theorem State.withDebug_err (s : State) (b : Bool) : (s.withDebug b).err = s.err := rfl
@[simp] theorem State.withDebug_det (s : State) (b : Bool) : (s.withDebug b).det = s.det := rfl
@[simp] theorem State.withDebug_metrics (s : State) (b : Bool) : (s.withDebug b).metrics = s.metrics := rfl
@[simp] theorem State.withDebug_clock (s : State) (b : Bool) : (s.withDebug b).clock = s.clock := rfl
@[simp] theorem State.withDebug_hold (s : State) (b : Bool) : (s.withDebug b).hold = s.hold := rfl
@[simp] theorem State.withDebug_cmdLo (s : State) (b : Bool) : (s.withDebug b).cmdLo = s.cmdLo := rfl
@[simp] theorem State.withDebug_trace (s : State) (b : Bool) : (s.withDebug b).trace = s.trace := rfl
@[simp] theorem State.withDebug_host (s : State) (b : Bool) : (s.withDebug b).host = s.host := rfl
@[simp] theorem State.withDebug_turns (s : State) (b : Bool) : (s.withDebug b).turns = s.turns := rfl
@[simp] theorem State.withDebug_recurring (s : State) (b : Bool) : (s.withDebug b).recurring = s.recurring := rfl

/-! ### State.withModeOther -/

@[simp] theorem State.withModeOther_params (s : State) (m : BitVec 7) : (s.withModeOther m).params = s.params := rfl
@[simp] theorem State.withModeOther_scu (s : State) (m : BitVec 7) : (s.withModeOther m).scu = { s.scu with modeOther := m } := rfl
@[simp] theorem State.withModeOther_seq (s : State) (m : BitVec 7) : (s.withModeOther m).seq = s.seq := rfl
@[simp] theorem State.withModeOther_err (s : State) (m : BitVec 7) : (s.withModeOther m).err = s.err := rfl
@[simp] theorem State.withModeOther_det (s : State) (m : BitVec 7) : (s.withModeOther m).det = s.det := rfl
@[simp] theorem State.withModeOther_metrics (s : State) (m : BitVec 7) : (s.withModeOther m).metrics = s.metrics := rfl
@[simp] theorem State.withModeOther_clock (s : State) (m : BitVec 7) : (s.withModeOther m).clock = s.clock := rfl
@[simp] theorem State.withModeOther_hold (s : State) (m : BitVec 7) : (s.withModeOther m).hold = s.hold := rfl
@[simp] theorem State.withModeOther_cmdLo (s : State) (m : BitVec 7) : (s.withModeOther m).cmdLo = s.cmdLo := rfl
@[simp] theorem State.withModeOther_trace (s : State) (m : BitVec 7) : (s.withModeOther m).trace = s.trace := rfl
@[simp] theorem State.withModeOther_host (s : State) (m : BitVec 7) : (s.withModeOther m).host = s.host := rfl
@[simp] theorem State.withModeOther_turns (s : State) (m : BitVec 7) : (s.withModeOther m).turns = s.turns := rfl
@[simp] theorem State.withModeOther_recurring (s : State) (m : BitVec 7) : (s.withModeOther m).recurring = s.recurring := rfl

/-! ### State.countCall -/

@[simp] theorem State.countCall_params (s : State) (i : StepIndex) : (s.countCall i).params = s.params := rfl
@[simp] theorem State.countCall_scu (s : State) (i : StepIndex) : (s.countCall i).scu = s.scu := rfl
@[simp] theorem State.countCall_seq (s : State) (i : StepIndex) : (s.countCall i).seq = s.seq := rfl
@[simp] theorem State.countCall_err (s : State) (i : StepIndex) : (s.countCall i).err = s.err := rfl
@[simp] theorem State.countCall_det (s : State) (i : StepIndex) : (s.countCall i).det = s.det := rfl
@[simp] theorem State.countCall_metrics (s : State) (i : StepIndex) : (s.countCall i).metrics = s.metrics := rfl
@[simp] theorem State.countCall_clock (s : State) (i : StepIndex) : (s.countCall i).clock = s.clock := rfl
@[simp] theorem State.countCall_hold (s : State) (i : StepIndex) : (s.countCall i).hold = s.hold := rfl
@[simp] theorem State.countCall_cmdLo (s : State) (i : StepIndex) : (s.countCall i).cmdLo = s.cmdLo := rfl
@[simp] theorem State.countCall_trace (s : State) (i : StepIndex) : (s.countCall i).trace = s.trace := rfl
@[simp] theorem State.countCall_turns (s : State) (i : StepIndex) : (s.countCall i).turns = s.turns := rfl
@[simp] theorem State.countCall_recurring (s : State) (i : StepIndex) : (s.countCall i).recurring = s.recurring := rfl
@[simp] theorem State.countCall_host_hostI (s : State) (i : StepIndex) : (s.countCall i).host.hostI = s.host.hostI :=
  rfl
@[simp] theorem State.countCall_host_context (s : State) (i : StepIndex) : (s.countCall i).host.context = s.host.context :=
  rfl
@[simp] theorem State.countCall_host_main (s : State) (i : StepIndex) : (s.countCall i).host.main = s.host.main :=
  rfl
@[simp] theorem State.countCall_host_intr (s : State) (i : StepIndex) : (s.countCall i).host.intr = s.host.intr :=
  rfl
@[simp] theorem State.countCall_host_lastFrame (s : State) (i : StepIndex) : (s.countCall i).host.lastFrame = s.host.lastFrame :=
  rfl
@[simp] theorem State.countCall_host_hostRaw (s : State) (i : StepIndex) : (s.countCall i).host.hostRaw = s.host.hostRaw :=
  rfl
@[simp] theorem State.countCall_host_mainLoop (s : State) (i : StepIndex) : (s.countCall i).host.mainLoop = s.host.mainLoop :=
  rfl
@[simp] theorem State.countCall_host_romDisabled (s : State) (i : StepIndex) : (s.countCall i).host.romDisabled = s.host.romDisabled :=
  rfl
@[simp] theorem State.countCall_thread (s : State) (i : StepIndex) : (s.countCall i).thread = s.thread := rfl
@[simp] theorem State.countCall_callback (s : State) (i : StepIndex) :
    (s.countCall i).callback i = (s.callback i).called := by
  simp [State.callback, State.countCall]

/-! ### State.gotoMain -/

/-- Mainline that still has something to run goes on with it. -/
theorem State.gotoMain_busy (s : State) (h : s.thread.ops ≠ []) : s.gotoMain = s := by
  unfold State.gotoMain
  split
  · simp_all [State.thread]
  all_goals rfl

/-- Interrupt code never begins the main loop. -/
theorem State.gotoMain_interrupt (s : State) (h : s.host.context = .interrupt) : s.gotoMain = s := by
  unfold State.gotoMain
  split <;> simp_all

/-- Mainline with nothing left to run begins the main loop (R164). -/
theorem State.gotoMain_loop (s : State) (hc : s.host.context = .mainline) (h : s.host.main.ops = []) :
    s.gotoMain = s.mapThread fun t => { t with ops := s.host.mainLoop } := by
  unfold State.gotoMain
  split <;> simp_all

/-! ### Turns -/

/-- With turns listed, those are the next ones. -/
@[simp] theorem State.nextTurns_cons (s : State) (t : Turn) (ts : List Turn) :
    ({ s with turns := t :: ts } : State).nextTurns = t :: ts := rfl

/-- With none listed, the recurring ones are (log 5). -/
@[simp] theorem State.nextTurns_nil (s : State) : ({ s with turns := [] } : State).nextTurns = s.recurring := rfl

/-! ### HostRoutine -/

@[simp] theorem HostRoutine.body_nil (ops : List HostOp) : (HostRoutine.mk [] ops).body = ops := rfl
@[simp] theorem HostRoutine.body_cons (b : List HostOp) (bs : List (List HostOp)) (ops : List HostOp) :
    (HostRoutine.mk (b :: bs) ops).body = b := rfl
@[simp] theorem HostRoutine.called_calls (r : HostRoutine) : r.called.calls = r.calls.tail := rfl
@[simp] theorem HostRoutine.called_later (r : HostRoutine) : r.called.later = r.later := rfl

end Sys2Proof.Machine
end

