-- ==== Sys2Proof/Laws/Ops.lean ====
section
/-! SUPPORT. One lemma for each shared operation: everything it can do, so that a proof cites it and unfolds nothing. -/

namespace Sys2Proof.Machine

/-! ### Views a record update does not touch -/

/-- stepAt reads only the step table. -/
theorem State.stepAt_congr (s t : State) (h : t.seq.steps = s.seq.steps) (k : StepIndex) : t.stepAt k = s.stepAt k := by
  simp only [State.stepAt, h]

@[simp] theorem State.stepAt_emit (s : State) (e : Event) (k : StepIndex) : (s.emit e).stepAt k = s.stepAt k := rfl
@[simp] theorem State.stepAt_wrap (s : State) (k : StepIndex) : s.wrap.stepAt k = s.stepAt k := rfl
@[simp] theorem State.stepAt_rearm (s : State) (k : StepIndex) : s.rearm.stepAt k = s.stepAt k := rfl

@[simp] theorem State.nextIndex_emit (s : State) (e : Event) : (s.emit e).nextIndex = s.nextIndex := rfl

/-- firePending reads five fields of the block. -/
theorem State.firePending_congr (s t : State) (hq : t.seq = s.seq) (hc : t.scu = s.scu) (hd : t.det = s.det) :
    t.firePending = s.firePending := by
  simp only [State.firePending, hq, hc, hd]

@[simp] theorem State.firePending_mapThread (s : State) (f : HostThread → HostThread) :
    (s.mapThread f).firePending = s.firePending :=
  State.firePending_congr _ _ (by simp) (by simp) (by simp)

@[simp] theorem State.firePending_returnByte (s : State) (d : Byte) :
    (s.returnByte d).firePending = s.firePending := State.firePending_mapThread s _

/-- What firePending is made of (R124). -/
theorem State.firePending_iff (s : State) :
    s.firePending = true ↔
      s.seq.enabled = true ∧ s.scu.irqEnRst = true ∧ s.scu.rst = true ∧ s.seq.seqState = .idle
        ∧ s.det.detecting = false := by
  simp [State.firePending, and_assoc]

/-! ### WRAP -/

/-- The clock's frame counter after WRAP (R139). -/
@[simp] theorem FrameClock.wrapped_frameCounter (c : FrameClock) (m : Metrics) :
    (c.wrapped m).frameCounter = c.frameCounter + 1 := rfl

/-- In Region A WRAP adds no drift and makes no correction (R139). -/
theorem FrameClock.sums_regionA (c : FrameClock) (m : Metrics) (h : m.regionA = true) :
    c.millisSum m = c.millis.toNat + m.mspf.toNat ∧ c.driftSum m = c.drift.toNat := by
  simp [FrameClock.millisSum, FrameClock.driftSum, FrameClock.corrects, Metrics.driftPerFrame, h]

/-- In Region B WRAP adds 667 µs and makes the correction at 1000 µs (R139). -/
theorem FrameClock.sums_regionB (c : FrameClock) (m : Metrics) (h : m.regionA = false) :
    (1000 ≤ c.drift.toNat + 667 ∧ c.millisSum m = c.millis.toNat + m.mspf.toNat + 1
        ∧ c.driftSum m = c.drift.toNat + 667 - 1000)
      ∨ (c.drift.toNat + 667 < 1000 ∧ c.millisSum m = c.millis.toNat + m.mspf.toNat
        ∧ c.driftSum m = c.drift.toNat + 667) := by
  by_cases hc : 1000 ≤ c.drift.toNat + 667
  · left
    simp [FrameClock.millisSum, FrameClock.driftSum, FrameClock.corrects, Metrics.driftPerFrame,
      Config.driftPerFrameB, Config.driftLimit, h, hc]
  · right
    simp [FrameClock.millisSum, FrameClock.driftSum, FrameClock.corrects, Metrics.driftPerFrame, h, hc]
    omega

/-! ### SEQ_FIRE -/

/-- How a fire ends: a callback request that leaves RST, or the sequencer's own acknowledge (R127, R128). -/
theorem State.fireSingle_cases (s : State) :
    (s.seq.stepCount = 1 ∧ (s.stepAt 0).cbv = true
        ∧ s.fireSingle = ((s.emit (.fire (some 0))).wrap).requestCallback 0)
      ∨ (s.seq.stepCount = 1 ∧ (s.stepAt 0).cbv = false ∧ s.fireSingle = ((s.emit (.fire (some 0))).wrap).selfAck)
      ∨ (s.seq.stepCount ≠ 1 ∧ s.fireSingle = ((s.emit (.fire none)).wrap).selfAck) := by
  by_cases h1 : s.seq.stepCount = 1
  · cases hc : (s.stepAt 0).cbv
    · exact .inr (.inl ⟨h1, rfl, by simp only [State.fireSingle, if_pos h1, hc]; rfl⟩)
    · exact .inl ⟨h1, rfl, by simp only [State.fireSingle, if_pos h1, hc]; rfl⟩
  · exact .inr (.inr ⟨h1, by simp only [State.fireSingle, if_neg h1]⟩)

/-- The state after FIRE_MULTI's re-arm and WRAP, before the callback request (R128). -/
def State.rearmed (s : State) : State :=
  let armed := (s.emit (.fire (some s.seq.curIndex))).rearm
  if s.nextIndex = 0 then armed.wrap else armed

/-- How FIRE_MULTI ends (R128). -/
theorem State.fireMulti_cases (s : State) :
    ((s.stepAt s.seq.curIndex).cbv = true ∧ s.fireMulti = s.rearmed.requestCallback s.seq.curIndex)
      ∨ ((s.stepAt s.seq.curIndex).cbv = false ∧ s.fireMulti = s.rearmed.selfAck) := by
  cases hc : (s.stepAt s.seq.curIndex).cbv
  · exact .inr ⟨rfl, by simp [State.fireMulti, State.rearmed, hc]⟩
  · exact .inl ⟨rfl, by simp [State.fireMulti, State.rearmed, hc]⟩

/-- What SEQ_FIRE leaves unchanged. -/
structure State.FireFrame (s t : State) : Prop where
  params : t.params = s.params
  err : t.err = s.err
  det : t.det = s.det
  metrics : t.metrics = s.metrics
  hold : t.hold = s.hold
  cmdLo : t.cmdLo = s.cmdLo
  host : t.host = s.host
  turns : t.turns = s.turns
  recurring : t.recurring = s.recurring
  raster : t.scu.raster = s.scu.raster
  modeOther : t.scu.modeOther = s.scu.modeOther
  irqEnRst : t.scu.irqEnRst = s.scu.irqEnRst
  enabled : t.seq.enabled = s.seq.enabled
  debug : t.seq.debug = s.seq.debug
  stepCount : t.seq.stepCount = s.seq.stepCount
  steps : t.seq.steps = s.seq.steps
  vecSlot : t.seq.vecSlot = s.seq.vecSlot
  clock : t.clock = s.clock ∨ t.clock = s.clock.wrapped s.metrics

/-- SEQ_FIRE writes COMPARE, RST, CUR_INDEX, CB_STEP, SEQ_STATE, the clock and the trace, and nothing else. -/
theorem State.seqFire_frame (s : State) : s.FireFrame s.seqFire := by
  unfold State.seqFire
  split
  · obtain ⟨_, _, h⟩ | ⟨_, _, h⟩ | ⟨_, h⟩ := s.fireSingle_cases <;> rw [h] <;>
      constructor <;> first | rfl | exact .inr rfl
  · by_cases hn : s.nextIndex = 0 <;> obtain ⟨_, h⟩ | ⟨_, h⟩ := s.fireMulti_cases <;>
      rw [h, State.rearmed] <;> simp only [hn, if_true, if_false] <;>
      constructor <;> first | rfl | exact .inl rfl | exact .inr rfl

/-- After a fire either a callback request is outstanding, with RST as it was, or RST = 0 (R125). -/
theorem State.seqFire_outcome (s : State) :
    (s.seqFire.seq.seqState = .cbWait ∧ s.seqFire.scu.rst = s.scu.rst)
      ∨ (s.seqFire.seq.seqState = s.seq.seqState ∧ s.seqFire.scu.rst = false) := by
  unfold State.seqFire
  split
  · obtain ⟨_, _, h⟩ | ⟨_, _, h⟩ | ⟨_, h⟩ := s.fireSingle_cases <;> rw [h] <;> simp
  · by_cases hn : s.nextIndex = 0 <;> obtain ⟨_, h⟩ | ⟨_, h⟩ := s.fireMulti_cases <;>
      rw [h, State.rearmed] <;> simp only [hn, if_true, if_false] <;> simp

/-! ### The settle -/

/-- SETTLE fires once when a fire is pending, and does nothing otherwise (R125). -/
theorem State.settle_cases (s : State) :
    (s.firePending = true ∧ s.settle = s.seqFire) ∨ (s.firePending = false ∧ s.settle = s) := by
  cases h : s.firePending <;> simp [State.settle, h]

/-- A quiet state settles to itself. -/
theorem State.settle_quiet (s : State) (h : s.Quiet) : s.settle = s := by
  simp [State.settle, show s.firePending = false from h]

/-- The settle's frame is a fire's frame. -/
theorem State.settle_frame (s : State) : s.FireFrame s.settle := by
  obtain ⟨_, h⟩ | ⟨_, h⟩ := s.settle_cases <;> rw [h]
  · exact s.seqFire_frame
  · constructor <;> first | rfl | exact .inl rfl

/-- A write transaction or a command goes on. -/
theorem State.finish_next (s : State) : s.finish = .next s.settle := rfl

/-- A read transaction goes on. -/
theorem State.answer_next (s : State) (d : Byte) : s.answer d = .next (s.returnByte d).settle := rfl

/-! ### Interrupt entry and return -/

/-- An entry faults on a slot mismatch, or masks and runs the handler (R151). -/
theorem State.takeInterrupt_cases (s : State) :
    (s.seq.enabled = true ∧ s.host.romDisabled ≠ s.seq.vecSlot ∧ s.takeInterrupt = .fault .vecSlotMismatch)
      ∨ ((s.seq.enabled = true → s.host.romDisabled = s.seq.vecSlot)
        ∧ s.takeInterrupt =
          .next
            { s with
              host :=
                { s.host with
                  hostI := true
                  context := .interrupt
                  intr := { s.host.intr with ops := s.handlerOps }
                  hostRaw := if s.seq.enabled then s.host.hostRaw else s.host.hostRaw.called } }) := by
  by_cases h : s.seq.enabled = true ∧ s.host.romDisabled ≠ s.seq.vecSlot
  · exact .inl ⟨h.1, h.2, by simp [State.takeInterrupt, h.1, h.2]⟩
  · refine .inr ⟨fun he => by_contra fun hr => h ⟨he, hr⟩, ?_⟩
    have hb : (s.seq.enabled && s.host.romDisabled != s.seq.vecSlot) = false := by
      simpa [and_comm] using h
    unfold State.takeInterrupt
    rw [if_neg (by simp [hb])]

/-- `rti` goes on only in interrupt context (R153). -/
theorem State.returnFromInterrupt_next (s t : State) (h : s.returnFromInterrupt = .next t) :
    s.host.context = .interrupt
      ∧ t =
        { s with
          host :=
            { s.host with
              hostI := false
              context := .mainline
              intr := { s.host.intr with ops := [] } } } := by
  cases hc : s.host.context <;> simp [State.returnFromInterrupt, hc] at h ⊢
  exact h.symm

end Sys2Proof.Machine
end

