-- ==== Sys2Proof/Laws/Step.lean ====
section
/-! SUPPORT. What a step can do, said once: inversion lemmas for transactions, host operations, turns and the step. -/

namespace Sys2Proof.Machine

/-- Every instruction goes on, and ends with the settle of its own effect (R71, R72). -/
theorem exec_settles (i : Instr) (s : State) : ∃ u : State, exec i s = .next u.settle := by
  cases i <;> exact ⟨_, rfl⟩

/-- A transaction goes on exactly in the window, as the instruction of its word (R42, R67). -/
theorem State.transact_cases (s : State) (c : BusCycle) :
    (c.inWindow s.params = true ∧ s.transact c = exec (decodeBus (c.word s.params)) s)
      ∨ (c.inWindow s.params = false ∧ s.transact c = .refused .outsideWindow) := by
  cases h : c.inWindow s.params <;> simp [State.transact, h]

/-- Host-side code runs only after a step that went on. -/
theorem thenHost_next (r : Result) (f : State → State) (t : State) (h : thenHost r f = .next t) :
    ∃ u, r = .next u ∧ t = f u := by
  cases r <;> simp [thenHost] at h
  exact ⟨_, rfl, h.symm⟩

/-- A host operation that goes on makes one transaction, or is one of the host's own steps (R11). -/
theorem State.runHostOp_cases (s t : State) (op : HostOp) (h : s.runHostOp op = .next t) :
    (∃ c u, op.cycle s.params = some c ∧ c.inWindow s.params = true
        ∧ exec (decodeBus (c.word s.params)) s = .next u ∧ t = op.after u)
      ∨ (op.cycle s.params = none ∧ s.runLocal op = .next t) := by
  unfold State.runHostOp at h
  cases hk : op.check <;> simp only [hk] at h
  · cases hc : op.cycle s.params <;> simp only [hc] at h
    · exact .inr ⟨rfl, h⟩
    · obtain ⟨u, hu, ht⟩ := thenHost_next _ _ _ h
      obtain ⟨hw, he⟩ | ⟨_, he⟩ := s.transact_cases _
      · exact .inl ⟨_, u, rfl, hw, he ▸ hu, ht⟩
      · simp [he] at hu
  · cases h

/-- What the host's own code leaves unchanged. -/
structure State.HostFrame (s t : State) : Prop where
  block : s.SameBlock t
  trace : t.trace = s.trace
  hostI : t.host.hostI = s.host.hostI
  context : t.host.context = s.host.context
  hostCb : t.host.hostCb = s.host.hostCb
  hostRaw : t.host.hostRaw = s.host.hostRaw
  mainLoop : t.host.mainLoop = s.host.mainLoop
  romDisabled : t.host.romDisabled = s.host.romDisabled
  turns : t.turns = s.turns
  recurring : t.recurring = s.recurring

theorem State.hostFrame_refl (s : State) : s.HostFrame s := by
  constructor
  · constructor <;> rfl
  all_goals rfl

theorem State.hostFrame_mapThread (s : State) (f : HostThread → HostThread) : s.HostFrame (s.mapThread f) := by
  constructor
  · constructor <;> simp
  all_goals simp

theorem State.hostFrame_setLastFrame (s : State) (f : Half) : s.HostFrame (s.setLastFrame f) := by
  constructor
  · constructor <;> rfl
  all_goals rfl

/-- The code after a transaction changes the current thread and LAST_FRAME only. -/
theorem HostOp.after_frame (op : HostOp) (s : State) : s.HostFrame (op.after s) := by
  cases op <;> simp only [HostOp.after]
  case waitFrame => split <;> exact s.hostFrame_mapThread _
  case waitPollHi lo =>
    unfold State.pollFrame; split
    · exact s.hostFrame_mapThread _
    · exact s.hostFrame_setLastFrame _
  case waitBelowHi lo => unfold State.pollBelow; split <;> exact s.hostFrame_mapThread _
  case waitAboveHi lo => unfold State.pollAbove; split <;> exact s.hostFrame_mapThread _
  case waitRecordHi lo => exact s.hostFrame_setLastFrame _
  all_goals first | exact s.hostFrame_refl | exact s.hostFrame_mapThread _

/-- The host's own steps change no RSE state and no turn, and the trace only by CbRun (R153, R154). -/
theorem State.runLocal_block (s t : State) (op : HostOp) (h : s.runLocal op = .next t) :
    s.SameBlock t ∧ (t.trace = s.trace ∨ ∃ k, t.trace = s.trace ++ [.cbRun k]) ∧ t.turns = s.turns
      ∧ t.recurring = s.recurring := by
  cases op <;> simp only [State.runLocal] at h
  case unmask =>
    unfold State.unmask at h
    split at h <;> cases h
    exact ⟨by constructor <;> rfl, .inl rfl, rfl, rfl⟩
  case rti =>
    obtain ⟨_, rfl⟩ := s.returnFromInterrupt_next t h
    exact ⟨by constructor <;> rfl, .inl rfl, rfl, rfl⟩
  case runCallback =>
    unfold State.callCallback at h
    split at h <;> cases h
    exact ⟨by constructor <;> simp, .inr ⟨s.thread.data.extractLsb' 0 3, by simp⟩, by simp, by simp⟩
  all_goals
    cases h
    exact ⟨by constructor <;> first | rfl | simp [State.yieldBit], .inl (by first | rfl | simp [State.yieldBit]),
      by first | rfl | simp [State.yieldBit], by first | rfl | simp [State.yieldBit]⟩

/-- Beginning the main loop again changes the current thread only. -/
theorem State.gotoMain_frame (s : State) : s.HostFrame s.gotoMain := by
  unfold State.gotoMain
  split
  · exact s.hostFrame_mapThread _
  all_goals exact s.hostFrame_refl

/-- The host's turn runs the next operation of the current thread, after `goto main` if mainline had none left, or
nothing. -/
theorem State.hostTurn_cases (s t : State) (h : s.hostTurn = .next t) :
    (s.gotoMain.thread.ops = [] ∧ t = s)
      ∨ ∃ op rest, s.gotoMain.thread.ops = op :: rest ∧ s.gotoMain.dropOp.runHostOp op = .next t := by
  unfold State.hostTurn at h
  split at h
  · exact .inl ⟨‹_›, by cases h; rfl⟩
  · exact .inr ⟨_, _, ‹_›, h⟩

/-- A thread with an operation left runs that one (R11). -/
theorem State.hostTurn_busy (s : State) (op : HostOp) (rest : List HostOp) (h : s.thread.ops = op :: rest) :
    s.hostTurn = s.dropOp.runHostOp op := by
  unfold State.hostTurn
  rw [s.gotoMain_busy (by simp [h]), h]

/-- What one step can do (R11): a beam step, a host turn, an interrupt entry, or a turn that was not possible. -/
theorem step_cases (s t : State) (h : step s = .next t) :
    s.params.Valid
      ∧ ((s.nextTurns = [] ∧ t = s.beamStep)
        ∨ ∃ ts u, u = { s with turns := ts }
          ∧ ((s.nextTurns = .beam :: ts ∧ t = u.beamStep)
            ∨ (s.nextTurns = .host :: ts ∧ u.hostTurn = .next t)
            ∨ (s.nextTurns = .entry :: ts ∧ s.entryEnabled = true ∧ u.takeInterrupt = .next t)
            ∨ (s.nextTurns = .entry :: ts ∧ s.entryEnabled = false ∧ t = u))) := by
  unfold step at h
  split at h
  · refine ⟨‹_›, ?_⟩
    unfold State.takeTurn at h
    split at h
    · exact .inl ⟨‹_›, by cases h; rfl⟩
    · rename_i a ts hts
      refine .inr ⟨ts, _, rfl, ?_⟩
      cases a <;> simp only [State.agentTurn] at h
      · exact .inl ⟨hts, by cases h; rfl⟩
      · exact .inr (.inl ⟨hts, h⟩)
      · split at h
        · exact .inr (.inr (.inl ⟨hts, ‹_›, h⟩))
        · exact .inr (.inr (.inr ⟨hts, by
            simpa only [Bool.not_eq_true] using (‹¬_› : ¬ s.entryEnabled = true), by cases h; rfl⟩))
  · cases h

end Sys2Proof.Machine
end

