-- ==== Sys2Proof/Laws/Fairness.lean ====
section
/-! SUPPORT. Turns and fairness (spec/70_reset_and_hazards.md R178): what a step does to the turns, and that a run
whose recurring turns name every agent is weakly fair. -/

namespace Sys2Proof.Machine

/-! ### What a step does to the turns -/

/-- A command leaves the turns, the parameters and the host as they are. -/
theorem State.runCommand_outside (s : State) (i : Instr) :
    (s.runCommand i).turns = s.turns ∧ (s.runCommand i).recurring = s.recurring ∧ (s.runCommand i).params = s.params
      ∧ (s.runCommand i).host = s.host := by
  cases i <;> try exact ⟨rfl, rfl, rfl, rfl⟩
  case detect => simp only [State.runCommand, State.runDetect]; split <;> exact ⟨rfl, rfl, rfl, rfl⟩
  case enable => simp only [State.runCommand, State.runEnable]; split <;> exact ⟨rfl, rfl, rfl, rfl⟩
  case addStep =>
    simp only [State.runCommand, State.runAddStep]
    split
    · split <;> exact ⟨rfl, rfl, rfl, rfl⟩
    · exact ⟨rfl, rfl, rfl, rfl⟩
  case softWrap =>
    simp only [State.runCommand, State.runSoftWrap]
    split
    · exact ⟨rfl, rfl, rfl, rfl⟩
    · split <;> exact ⟨rfl, rfl, rfl, rfl⟩

theorem State.runWord_outside (s : State) (w : Half) :
    (s.runWord w).turns = s.turns ∧ (s.runWord w).recurring = s.recurring ∧ (s.runWord w).params = s.params
      ∧ (s.runWord w).host = s.host := by
  unfold State.runWord
  split
  · exact s.runCommand_outside _
  · exact ⟨rfl, rfl, rfl, rfl⟩

/-- A write of CMD_HI leaves the parameters and the host as they are. -/
theorem exec_wrCmdHi_outside (d : Byte) (s t : State) (h : exec (.wrCmdHi d) s = .next t) :
    t.params = s.params ∧ t.host = s.host := by
  cases h
  have hw := s.runWord_outside (d ++ s.cmdLo)
  exact ⟨(State.settle_frame _).params.trans hw.2.2.1, (State.settle_frame _).host.trans hw.2.2.2⟩

/-- What settles after an instruction has the turns of the state before it. -/
theorem exec_turns (i : Instr) (s t : State) (h : exec i s = .next t) :
    t.turns = s.turns ∧ t.recurring = s.recurring := by
  suffices ∃ u : State, t = u.settle ∧ u.turns = s.turns ∧ u.recurring = s.recurring by
    obtain ⟨u, rfl, h1, h2⟩ := this
    exact ⟨u.settle_frame.turns.trans h1, u.settle_frame.recurring.trans h2⟩
  cases i <;> cases h
  case wrCmdHi d => exact ⟨_, rfl, (s.runWord_outside _).1, (s.runWord_outside _).2.1⟩
  case wrIrqStatus d =>
    refine ⟨_, rfl, ?_⟩
    split
    · unfold State.acknowledge; split <;> exact ⟨rfl, rfl⟩
    · exact ⟨rfl, rfl⟩
  case nop => exact ⟨_, rfl, (s.runCommand_outside .nop).1, (s.runCommand_outside .nop).2.1⟩
  case detect => exact ⟨_, rfl, (s.runCommand_outside .detect).1, (s.runCommand_outside .detect).2.1⟩
  case enable => exact ⟨_, rfl, (s.runCommand_outside .enable).1, (s.runCommand_outside .enable).2.1⟩
  case disable => exact ⟨_, rfl, (s.runCommand_outside .disable).1, (s.runCommand_outside .disable).2.1⟩
  case addStep cbv line => exact ⟨_, rfl, (s.runCommand_outside (.addStep cbv line)).1, (s.runCommand_outside (.addStep cbv line)).2.1⟩
  case setDebug d => exact ⟨_, rfl, (s.runCommand_outside (.setDebug d)).1, (s.runCommand_outside (.setDebug d)).2.1⟩
  case softWrap => exact ⟨_, rfl, (s.runCommand_outside .softWrap).1, (s.runCommand_outside .softWrap).2.1⟩
  all_goals exact ⟨_, rfl, by simp, by simp⟩

/-- A beam step leaves the turns, the parameters and the host as they are. -/
theorem State.beamStep_outside (s : State) :
    s.beamStep.turns = s.turns ∧ s.beamStep.recurring = s.recurring ∧ s.beamStep.params = s.params
      ∧ s.beamStep.host = s.host := by
  unfold State.beamStep
  rw [(State.settle_frame _).turns, (State.settle_frame _).recurring, (State.settle_frame _).params,
    (State.settle_frame _).host]
  unfold State.detSample State.compareMatch
  split <;> split <;> (try split) <;> exact ⟨rfl, rfl, rfl, rfl⟩

theorem State.beamStep_turns (s : State) : s.beamStep.turns = s.turns ∧ s.beamStep.recurring = s.recurring :=
  ⟨s.beamStep_outside.1, s.beamStep_outside.2.1⟩

theorem State.hostTurn_turns (s t : State) (h : s.hostTurn = .next t) :
    t.turns = s.turns ∧ t.recurring = s.recurring := by
  obtain ⟨_, rfl⟩ | ⟨op, _, _, ho⟩ := s.hostTurn_cases t h
  · exact ⟨rfl, rfl⟩
  · have hg := s.gotoMain_frame
    obtain ⟨_, u, _, _, he, rfl⟩ | ⟨_, hl⟩ := s.gotoMain.dropOp.runHostOp_cases t op ho
    · have := exec_turns _ _ _ he
      have hf := op.after_frame u
      exact ⟨hf.turns.trans (by simpa [hg.turns] using this.1),
        hf.recurring.trans (by simpa [hg.recurring] using this.2)⟩
    · have := s.gotoMain.dropOp.runLocal_block t op hl
      exact ⟨by simpa [hg.turns] using this.2.2.1, by simpa [hg.recurring] using this.2.2.2⟩

/-- A step takes one turn off the list and leaves the recurring turns as they are (log 5). -/
theorem step_turns (s t : State) (h : step s = .next t) :
    t.turns = s.nextTurns.tail ∧ t.recurring = s.recurring := by
  obtain ⟨_, ⟨hn, rfl⟩ | ⟨ts, u, rfl, ⟨hn, rfl⟩ | ⟨hn, hh⟩ | ⟨hn, _, hi⟩ | ⟨hn, _, rfl⟩⟩⟩ := step_cases s t h
  · refine ⟨?_, s.beamStep_turns.2⟩
    rw [s.beamStep_turns.1, hn]
    cases ht : s.turns <;> simp_all [State.nextTurns]
  · rw [hn]; exact State.beamStep_turns _
  · rw [hn]; exact State.hostTurn_turns _ _ hh
  · rw [hn]
    obtain ⟨_, _, hf⟩ | ⟨_, hf⟩ := State.takeInterrupt_cases ({ s with turns := ts } : State) <;>
      rw [hf] at hi <;> cases hi
    exact ⟨rfl, rfl⟩
  · rw [hn]; exact ⟨rfl, rfl⟩

/-! ### Fairness -/

/-- A run of the step function takes the turns that stand next, one a step. -/
theorem StepRun.drop (r : Nat → State) (h : StepRun r) (n k : Nat) (hk : k < (r n).nextTurns.length) :
    (r (n + k)).nextTurns = (r n).nextTurns.drop k := by
  induction k with
  | zero => rfl
  | succ k ih =>
    have ht := (step_turns _ _ (h (n + k))).1
    rw [ih (by omega), List.tail_drop] at ht
    obtain ⟨a, l, hl⟩ : ∃ a l, (r n).nextTurns.drop (k + 1) = a :: l :=
      List.exists_cons_of_ne_nil (by simp; omega)
    rw [hl] at ht ⊢
    show (r (n + k + 1)).nextTurns = a :: l
    unfold State.nextTurns
    rw [ht]

/-- Once the turns that stand next are taken, none is listed. -/
theorem StepRun.used_up (r : Nat → State) (h : StepRun r) (n : Nat) (hn : (r n).nextTurns ≠ []) :
    (r (n + (r n).nextTurns.length)).turns = [] := by
  obtain ⟨k, hk⟩ := Nat.exists_eq_succ_of_ne_zero (List.length_pos_of_ne_nil hn).ne'
  rw [hk]
  rw [show n + k.succ = n + k + 1 from rfl, (step_turns _ _ (h (n + k))).1,
    StepRun.drop r h n k (by omega), List.tail_drop]
  exact List.drop_eq_nil_of_le (by omega)

theorem StepRun.recurring (r : Nat → State) (h : StepRun r) (n : Nat) : (r n).recurring = (r 0).recurring := by
  induction n with
  | zero => rfl
  | succ n ih => rw [(step_turns _ _ (h n)).2, ih]

/-- An agent that the recurring turns name moves again and again. -/
theorem StepRun.moves_again (r : Nat → State) (h : StepRun r) (a : Turn) (ha : a ∈ (r 0).recurring) (n : Nat) :
    ∃ m, n ≤ m ∧ (r m).mover = a := by
  have hne : ∀ m, (r m).nextTurns ≠ [] := by
    intro m hm
    have : (r m).recurring = [] := by
      unfold State.nextTurns at hm
      split at hm <;> simp_all
    rw [StepRun.recurring r h m] at this
    simp [this] at ha
  obtain ⟨p, hp, hu⟩ : ∃ p, n ≤ p ∧ (r p).turns = [] := ⟨_, by omega, StepRun.used_up r h n (hne n)⟩
  have hl : (r p).nextTurns = (r 0).recurring := by
    unfold State.nextTurns
    rw [hu]
    exact StepRun.recurring r h p
  obtain ⟨i, hi, hai⟩ := List.getElem_of_mem ha
  refine ⟨p + i, by omega, ?_⟩
  unfold State.mover
  rw [StepRun.drop r h p i (by rw [hl]; exact hi), hl, List.drop_eq_getElem_cons hi]
  exact hai

/-- R178: a run whose recurring turns name every agent is weakly fair. -/
theorem StepRun.weaklyFair (r : Nat → State) (h : StepRun r) (hall : ∀ a : Turn, a ∈ (r 0).recurring) :
    WeaklyFair (fun n => (r n).mover) r :=
  fun a n _ => StepRun.moves_again r h a (hall a) n

/-- Host code may go on as it is. -/
theorem State.goesOn_refl (s : State) : s.GoesOn s :=
  { main := fun _ => rfl, intr := .inl rfl, callback := fun _ _ => rfl, raw := fun _ => rfl, rest := rfl }

/-- The host has a step in mainline as long as a main loop is given (R164). -/
theorem State.ready_mainLoop (s : State) (hc : s.host.context = .mainline) (hl : s.host.mainLoop ≠ []) :
    s.ready .host = true := by
  cases hm : s.host.main.ops with
  | nil => simpa [State.ready, s.gotoMain_loop hc hm, State.mapThread, State.thread, hc] using hl
  | cons op rest =>
    have ht : s.thread.ops = op :: rest := by simp [State.thread, hc, hm]
    simp [State.ready, s.gotoMain_busy (by simp [ht]), ht]

/-- After reset the recurring turns name every agent, so that every run from reset is weakly fair. -/
theorem State.resetWith_recurring (p : Params) (l : Line) (m : BitVec 7) (rom : Bool) (cb : Vector HostRoutine 8)
    (raw : HostRoutine) (boot loop : List HostOp) (a : Turn) :
    a ∈ (State.resetWith p l m rom cb raw boot loop).recurring := by
  cases a <;> simp [State.resetWith]

end Sys2Proof.Machine
end

