-- ==== Sys2Proof/Laws/Operands.lean ====
section
/-! SUPPORT. The byte views of the registers as numbers (spec/20_memory.md R43–R49). -/

namespace Sys2Proof.Machine

theorem bitByte_toNat (b : Bool) : (bitByte b).toNat = b.toNat := by cases b <;> decide

theorem lowByte_toNat (v : Half) : (lowByte v).toNat = v.toNat % 256 := by
  rw [lowByte, toNat_field]; omega

theorem highByte_toNat (v : Half) : (highByte v).toNat = v.toNat / 256 := by
  have := v.isLt
  rw [highByte, toNat_field]; omega

theorem lineLow_toNat (l : Line) : (lineLow l).toNat = l.toNat % 256 := by
  rw [lineLow, toNat_field]; omega

theorem lineHigh_iff (l : Line) : lineHigh l = decide (256 ≤ l.toNat) := by
  have := l.isLt
  rw [lineHigh, bit_eq, decide_eq_decide]; omega

theorem lineHigh_toNat (l : Line) : (lineHigh l).toNat = l.toNat / 256 := by
  have := l.isLt
  rw [lineHigh_iff]
  by_cases h : 256 ≤ l.toNat <;> simp only [h, decide_true, decide_false, Bool.toNat_true, Bool.toNat_false] <;> omega

theorem withLineLow_toNat (l : Line) (d : Byte) : (withLineLow l d).toNat = l.toNat / 256 * 256 + d.toNat := by
  have h : (withLineLow l d).toNat = (BitVec.ofBool (lineHigh l)).toNat * 2 ^ 8 + d.toNat := toNat_concat _ _
  rw [BitVec.toNat_ofBool, lineHigh_toNat] at h
  omega

theorem withLineHigh_toNat (l : Line) (b : Bool) : (withLineHigh l b).toNat = b.toNat * 256 + l.toNat % 256 := by
  have h : (withLineHigh l b).toNat = (BitVec.ofBool b).toNat * 2 ^ 8 + (lineLow l).toNat := toNat_concat _ _
  rw [BitVec.toNat_ofBool, lineLow_toNat] at h
  omega

theorem modeByte_toNat (c : Scu) : (modeByte c).toNat = c.compare.toNat / 256 * 128 + c.modeOther.toNat := by
  have h : (modeByte c).toNat = (BitVec.ofBool (lineHigh c.compare)).toNat * 2 ^ 7 + c.modeOther.toNat :=
    toNat_concat _ _
  rw [BitVec.toNat_ofBool, lineHigh_toNat] at h
  omega

theorem modeLineHigh_iff (d : Byte) : modeLineHigh d = decide (128 ≤ d.toNat) := by
  have := d.isLt
  rw [modeLineHigh, bit_eq, decide_eq_decide]; omega

theorem modeRest_toNat (d : Byte) : (modeRest d).toNat = d.toNat % 128 := by
  rw [modeRest, toNat_field]; omega

theorem lowBit_iff (d : Byte) : lowBit d = decide (d.toNat % 2 = 1) := by
  rw [lowBit, bit_eq, decide_eq_decide]; omega

theorem indexByte_toNat (k : StepIndex) : (indexByte k).toNat = k.toNat := by
  have := k.isLt
  rw [indexByte, BitVec.toNat_setWidth]; omega

theorem countByte_toNat (n : BitVec 4) : (countByte n).toNat = n.toNat := by
  have := n.isLt
  rw [countByte, BitVec.toNat_setWidth]; omega

theorem stepHighByte_toNat (e : StepEntry) : (stepHighByte e).toNat = e.cbv.toNat * 128 + e.line.toNat / 256 := by
  have h : (stepHighByte e).toNat
      = (BitVec.ofBool e.cbv ++ 0#6).toNat * 2 ^ 1 + (BitVec.ofBool (lineHigh e.line)).toNat := toNat_concat _ _
  have h2 := toNat_concat (BitVec.ofBool e.cbv) 0#6
  have h3 : (0#6).toNat = 0 := rfl
  rw [BitVec.toNat_ofBool, lineHigh_toNat] at h
  rw [BitVec.toNat_ofBool, h3] at h2
  omega

theorem commandWord_toNat (s : State) (d : Byte) : (s.commandWord d).toNat = d.toNat * 256 + s.cmdLo.toNat := by
  have h : (s.commandWord d).toNat = d.toNat * 2 ^ 8 + s.cmdLo.toNat := toNat_concat _ _
  omega

end Sys2Proof.Machine
end

