-- ==== Sys2Proof/Laws/PerInstr.lean ====
section
/-! SUPPORT. Family EncodingRow: the encoding of a well-formed instruction lies in a row of the opcode table that has the
instruction's mnemonic (spec/30_encoding.md R67). One lemma per constructor. -/

namespace Sys2Proof.Laws.EncodingRow

/-- An encoded word lies in a row that names the instruction. -/
def InRow (i : Instr) : Encoded → Bool
  | .bus w => busRows.any fun r => rowMatches 15 r w && r.names i
  | .cmd w => cmdRows.any fun r => rowMatches 16 r w && r.names i

/-- The family's statement. -/
def Statement (i : Instr) : Prop := i.WellFormed → InRow i (encode i) = true

/-- The bits of a transaction below bit 8 are DATA's, the others do not depend on it (R62). -/
theorem busWord_bit (w : Bool) (off : Offset) (d : Byte) (i : Nat) :
    (busWord w off d).getLsbD i = if i < 8 then d.getLsbD i else (BitVec.ofBool w ++ off).getLsbD (i - 8) :=
  BitVec.getLsbD_append

/-- DATA is not part of the match of a row whose mask has no bit below bit 8 (R67). -/
theorem busWord_and_mask (w : Bool) (off : Offset) (d : Byte) (m : BusWord) (hm : m &&& 0xFF#15 = 0#15) :
    busWord w off d &&& m = busWord w off 0 &&& m := by
  apply BitVec.eq_of_getLsbD_eq
  intro i _
  rw [BitVec.getLsbD_and, BitVec.getLsbD_and, busWord_bit, busWord_bit]
  by_cases h8 : i < 8
  · have h1 : (0xFF#15).getLsbD i = true := by
      have : ∀ j : Fin 8, (0xFF#15).getLsbD j.val = true := by decide
      exact this ⟨i, h8⟩
    have h2 : (m &&& 0xFF#15).getLsbD i = false := by rw [hm]; exact BitVec.getLsbD_zero
    rw [BitVec.getLsbD_and, h1, Bool.and_true] at h2
    simp [h2]
  · simp [h8]

/-- No BUS15 row's mask has a bit below bit 8 (R67). -/
theorem busRows_mask : ∀ r ∈ busRows, r.mask &&& 0xFF#15 = 0#15 := by
  have h : (busRows.all fun r => r.mask &&& 0xFF#15 == 0#15) = true := by decide
  simpa using h

/-- Whether a transaction lies in a row does not depend on DATA. -/
theorem inRow_data (i : Instr) (w : Bool) (off : Offset) (d : Byte) :
    InRow i (.bus (busWord w off d)) = InRow i (.bus (busWord w off 0)) := by
  simp only [InRow]
  rw [Bool.eq_iff_iff, List.any_eq_true, List.any_eq_true]
  constructor <;> rintro ⟨r, hr, h⟩ <;> refine ⟨r, hr, ?_⟩ <;>
    simpa only [rowMatches, busWord_and_mask w off d r.mask (busRows_mask r hr)] using h

theorem rdRasterLo : Statement .rdRasterLo := by unfold Statement; decide

theorem rdRasterHi : Statement .rdRasterHi := by unfold Statement; decide

theorem rdCompareLo : Statement .rdCompareLo := by unfold Statement; decide

theorem wrCompareLo (d : Byte) : Statement (.wrCompareLo d) :=
  fun _ => (inRow_data _ true 0x02 d).trans rfl

theorem rdMode : Statement .rdMode := by unfold Statement; decide

theorem wrMode (d : Byte) : Statement (.wrMode d) :=
  fun _ => (inRow_data _ true 0x03 d).trans rfl

theorem rdIrqStatus : Statement .rdIrqStatus := by unfold Statement; decide

theorem wrIrqStatus (d : Byte) : Statement (.wrIrqStatus d) :=
  fun _ => (inRow_data _ true 0x04 d).trans rfl

theorem rdIrqEn : Statement .rdIrqEn := by unfold Statement; decide

theorem wrIrqEn (d : Byte) : Statement (.wrIrqEn d) :=
  fun _ => (inRow_data _ true 0x05 d).trans rfl

theorem rdCmdLo : Statement .rdCmdLo := by unfold Statement; decide

theorem wrCmdLo (d : Byte) : Statement (.wrCmdLo d) :=
  fun _ => (inRow_data _ true 0x08 d).trans rfl

theorem rdCmdHi : Statement .rdCmdHi := by unfold Statement; decide

theorem wrCmdHi (d : Byte) : Statement (.wrCmdHi d) :=
  fun _ => (inRow_data _ true 0x09 d).trans rfl

theorem rdStatus : Statement .rdStatus := by unfold Statement; decide

theorem rdErrCode : Statement .rdErrCode := by unfold Statement; decide

theorem rdCurIndex : Statement .rdCurIndex := by unfold Statement; decide

theorem rdStepCount : Statement .rdStepCount := by unfold Statement; decide

theorem rdCbStep : Statement .rdCbStep := by unfold Statement; decide

theorem rdStepLo (k : StepIndex) : Statement (.rdStepLo k) := by unfold Statement; revert k; decide

theorem rdStepHi (k : StepIndex) : Statement (.rdStepHi k) := by unfold Statement; revert k; decide

theorem rdMetricsFlags : Statement .rdMetricsFlags := by unfold Statement; decide

theorem rdFps : Statement .rdFps := by unfold Statement; decide

theorem rdMspf : Statement .rdMspf := by unfold Statement; decide

theorem rdTotalLinesLo : Statement .rdTotalLinesLo := by unfold Statement; decide

theorem rdTotalLinesHi : Statement .rdTotalLinesHi := by unfold Statement; decide

theorem rdMeasuredLo : Statement .rdMeasuredLo := by unfold Statement; decide

theorem rdMeasuredHi : Statement .rdMeasuredHi := by unfold Statement; decide

theorem rdFcLo : Statement .rdFcLo := by unfold Statement; decide

theorem rdFcHi : Statement .rdFcHi := by unfold Statement; decide

theorem rdSecLo : Statement .rdSecLo := by unfold Statement; decide

theorem rdSecHi : Statement .rdSecHi := by unfold Statement; decide

theorem rdMsLo : Statement .rdMsLo := by unfold Statement; decide

theorem rdMsHi : Statement .rdMsHi := by unfold Statement; decide

theorem rdDriftLo : Statement .rdDriftLo := by unfold Statement; decide

theorem rdDriftHi : Statement .rdDriftHi := by unfold Statement; decide

theorem rdReserved (off : Offset) : Statement (.rdReserved off) := by unfold Statement; revert off; decide

theorem wrIgnored (off : Offset) (d : Byte) : Statement (.wrIgnored off d) := by
  have h : ∀ o : Offset, ignoredOffset o = true → InRow (.wrIgnored o 0) (.bus (busWord true o 0)) = true := by decide
  exact fun hw => (inRow_data _ true off d).trans (h off hw)

theorem nop : Statement .nop := by unfold Statement; decide

theorem detect : Statement .detect := by unfold Statement; decide

theorem enable : Statement .enable := by unfold Statement; decide

theorem disable : Statement .disable := by unfold Statement; decide

/-- The row of ADD_STEP holds its words at every value of CBV and LINE (R64, R65). -/
theorem addStep_row : ∀ (cbv : Bool) (h : BitVec 1) (l : Byte),
    InRow (.addStep cbv (h ++ l)) (encode (.addStep cbv (h ++ l))) = true := by decide

theorem addStep (cbv : Bool) (line : Line) : Statement (.addStep cbv line) := by
  intro _
  have hl : (line.extractLsb' 8 1 ++ line.extractLsb' 0 8 : Line) = line := by
    apply BitVec.eq_of_toNat_eq
    have := line.isLt
    have h : (line.extractLsb' 8 1 ++ line.extractLsb' 0 8 : Line).toNat
        = (line.extractLsb' 8 1).toNat * 2 ^ 8 + (line.extractLsb' 0 8).toNat := toNat_concat _ _
    rw [h, toNat_field, toNat_field]; omega
  exact hl ▸ addStep_row cbv (line.extractLsb' 8 1) (line.extractLsb' 0 8)

theorem setDebug (d : Bool) : Statement (.setDebug d) := by unfold Statement; revert d; decide

theorem softWrap : Statement .softWrap := by unfold Statement; decide

end Sys2Proof.Laws.EncodingRow
end

