-- ==== Sys2Proof/Tests/Slice0.lean ====
section
/-! SUPPORT. Tests against spec/95_test_vectors.md and the rules' own examples: the check of ill-formed terms, a word
written out for every constructor, at most two small steps for each instruction, and a witness for the hypotheses of every
statement. -/

namespace Sys2Proof.Tests

open Sys2Proof Sys2Proof.Machine

/-! ### Helpers -/

/-- The next state, if there is one. -/
def nextOf (r : Result) : Option State :=
  match r with
  | .next t => some t
  | .fault _ => none
  | .refused _ => none

/-- The state after an instruction; the same state if it stops. -/
def after (i : Instr) (s : State) : State := (nextOf (exec i s)).getD s

/-- The byte a read returns. -/
def byteOf (i : Instr) (s : State) : Byte := (after i s).thread.data

/-- The beam at a line. -/
def atLine (s : State) (l : Line) : State := { s with scu := { s.scu with raster := l } }

/-- "Detected A" of 95_test_vectors.md. -/
def detectedA : State :=
  { State.reset with
    metrics := { valid := true, regionA := true, fps := 50, mspf := 20, totalLines := 312, measured := 312 }
    scu := { State.reset.scu with rst := true } }

/-- "Detected B" of 95_test_vectors.md. -/
def detectedB : State :=
  { State.reset with
    params := { Params.example with hwLines := 262 }
    metrics := { valid := true, regionA := false, fps := 60, mspf := 16, totalLines := 262, measured := 262 }
    scu := { State.reset.scu with rst := true } }

/-- Two callback steps at lines 50 and 60, enabled. -/
def twoSteps : State := after .enable (after (.addStep true 60) (after (.addStep true 50) detectedA))

/-- twoSteps at line 50: its callback 0 is requested. -/
def waiting : State := (atLine twoSteps 49).beamStep

/-- Three steps without callbacks at lines 10, 20, 30, enabled (V-SC3). -/
def threeSteps : State :=
  after .enable (after (.addStep false 30) (after (.addStep false 20) (after (.addStep false 10) detectedA)))

/-- A measurement running from line 100 (V-TD9). -/
def measuring : State := after .detect (atLine { State.reset with params := detectedB.params } 100)

/-- A frame clock, in Region B. -/
def clockB (fc sec ms drift : Half) : State :=
  { detectedB with clock := { frameCounter := fc, seconds := sec, millis := ms, drift := drift } }

/-- `s` in interrupt context with the dispatcher still to run. -/
def inHandler (s : State) : State :=
  { s with
    host := { s.host with
      hostI := true, context := .interrupt, intr := { s.host.intr with ops := dispatchOps s.params } } }

/-- `s` with mainline operations to run. -/
def withOps (s : State) (ops : List HostOp) : State :=
  { s with host := { s.host with main := { s.host.main with ops := ops } } }

/-- `s` with turns to take. -/
def withTurns (s : State) (ts : List Turn) : State := { s with turns := ts }

/-- `s` unmasked. -/
def unmasked (s : State) : State := { s with host := { s.host with hostI := false } }

/-! ### WellFormed: an ill-formed term for each check -/

theorem test_wf_refuses_a_defined_offset_as_reserved : Instr.wf (.rdReserved 0x05) = false := by decide
theorem test_wf_accepts_a_reserved_offset : Instr.wf (.rdReserved 0x3F) = true := by decide
theorem test_wf_refuses_a_writable_offset_as_ignored : Instr.wf (.wrIgnored 0x09 0xFF) = false := by decide
theorem test_wf_accepts_an_ignored_offset : Instr.wf (.wrIgnored 0x0A 0xFF) = true := by decide

/-! ### Decode: words written out from R62, R64 and R65 -/

theorem test_decode_scanline_reads :
    decodeBus 0b0_000000_00000000 = .rdRasterLo ∧ decodeBus 0b0_000001_00000000 = .rdRasterHi
      ∧ decodeBus 0b0_000010_00000000 = .rdCompareLo ∧ decodeBus 0b0_000011_00000000 = .rdMode
      ∧ decodeBus 0b0_000100_00000000 = .rdIrqStatus ∧ decodeBus 0b0_000101_00000000 = .rdIrqEn := by decide

theorem test_decode_scanline_writes :
    decodeBus 0b1_000010_00101100 = .wrCompareLo 0x2C ∧ decodeBus 0b1_000011_10000101 = .wrMode 0x85
      ∧ decodeBus 0b1_000100_00000001 = .wrIrqStatus 0x01 ∧ decodeBus 0b1_000101_11111111 = .wrIrqEn 0xFF := by
  decide

theorem test_decode_command_registers :
    decodeBus 0b0_001000_00000000 = .rdCmdLo ∧ decodeBus 0b1_001000_00110100 = .wrCmdLo 0x34
      ∧ decodeBus 0b0_001001_00000000 = .rdCmdHi ∧ decodeBus 0b1_001001_00100000 = .wrCmdHi 0x20
      ∧ decodeBus 0b0_001010_00000000 = .rdStatus ∧ decodeBus 0b0_001011_00000000 = .rdErrCode
      ∧ decodeBus 0b0_001100_00000000 = .rdCurIndex ∧ decodeBus 0b0_001101_00000000 = .rdStepCount
      ∧ decodeBus 0b0_001110_00000000 = .rdCbStep := by decide

theorem test_decode_step_table :
    decodeBus 0b0_010000_00000000 = .rdStepLo 0 ∧ decodeBus 0b0_010001_00000000 = .rdStepHi 0
      ∧ decodeBus 0b0_010110_00000000 = .rdStepLo 3 ∧ decodeBus 0b0_011111_00000000 = .rdStepHi 7 := by decide

theorem test_decode_metrics :
    decodeBus 0b0_100000_00000000 = .rdMetricsFlags ∧ decodeBus 0b0_100001_00000000 = .rdFps
      ∧ decodeBus 0b0_100010_00000000 = .rdMspf ∧ decodeBus 0b0_100100_00000000 = .rdTotalLinesLo
      ∧ decodeBus 0b0_100101_00000000 = .rdTotalLinesHi ∧ decodeBus 0b0_100110_00000000 = .rdMeasuredLo
      ∧ decodeBus 0b0_100111_00000000 = .rdMeasuredHi := by decide

theorem test_decode_frame_clock :
    decodeBus 0b0_110000_00000000 = .rdFcLo ∧ decodeBus 0b0_110001_00000000 = .rdFcHi
      ∧ decodeBus 0b0_110010_00000000 = .rdSecLo ∧ decodeBus 0b0_110011_00000000 = .rdSecHi
      ∧ decodeBus 0b0_110100_00000000 = .rdMsLo ∧ decodeBus 0b0_110101_00000000 = .rdMsHi
      ∧ decodeBus 0b0_110110_00000000 = .rdDriftLo ∧ decodeBus 0b0_110111_00000000 = .rdDriftHi := by decide

theorem test_decode_reserved_and_ignored :
    decodeBus 0b0_100011_00000000 = .rdReserved 0x23 ∧ decodeBus 0b1_111111_00000000 = .wrIgnored 0x3F 0x00
      ∧ decodeBus 0b1_001010_11111111 = .wrIgnored 0x0A 0xFF := by decide

theorem test_decode_commands :
    decodeCmd 0b0000_000000000000 = .ok .nop ∧ decodeCmd 0b0001_000000000000 = .ok .detect
      ∧ decodeCmd 0b0010_000000000000 = .ok .enable ∧ decodeCmd 0b0011_000000000000 = .ok .disable
      ∧ decodeCmd 0b0100_1_00_000110010 = .ok (.addStep true 50)
      ∧ decodeCmd 0b0100_0_00_111111110 = .ok (.addStep false 510)
      ∧ decodeCmd 0b0101_00000000000_1 = .ok (.setDebug true)
      ∧ decodeCmd 0b0110_000000000000 = .ok .softWrap := by decide

/-- V-EN11, V-EN13, V-EN14, V-EN15. -/
theorem test_decode_reserved_commands :
    ([0x4200, 0x4400, 0x4A00, 0x5002, 0x5003, 0x5800, 0x0001, 0x1001, 0x2010, 0x3800, 0x6001, 0x7000, 0x8123, 0xF000,
      0xFFFF] : List Half).all (fun w => (decodeCmd w).toOption == none) = true := by decide

/-- Three rows of the table, in its numbering (R62, R67). -/
theorem test_table_words :
    decodeTableWord 16 0x4401 = some (.wrIrqStatus 0x01) ∧ decodeTableWord 16 0x1700 = some (.rdStepHi 3)
      ∧ decodeTableWord 16 0x0A00 = some .rdStatus := by decide

/-- A placed word is the next step: `wr CMD_LO, #0x34` (V-RA7). -/
theorem test_placed_word_runs :
    (nextOf (step (State.reset.withFetchWord 16 0x4834))).map (·.cmdLo) = some 0x34 := by decide

/-! ### Scanline-compare unit -/

/-- V-RA1. -/
theorem test_rdRasterLo : byteOf .rdRasterLo (atLine detectedA 300) = 0x2C
    ∧ (after .rdRasterLo (atLine detectedA 300)).hold.raster = true := by decide
/-- V-RA2: the pair is not torn by the beam step between. -/
theorem test_rdRasterHi : byteOf .rdRasterHi (after .rdRasterLo (atLine detectedA 255)).beamStep = 0x00 := by decide
/-- V-RA3. -/
theorem test_wrCompareLo :
    (after (.wrCompareLo 0x2C) { State.reset with scu := { State.reset.scu with compare := 0x100 } }).scu.compare
      = 300 := by decide
theorem test_rdCompareLo : byteOf .rdCompareLo (after (.wrCompareLo 0x2C) State.reset) = 0x2C := by decide
/-- V-RA3, V-RA4. -/
theorem test_wrMode :
    (after (.wrMode 0x85) (after (.wrCompareLo 0x2C) State.reset)).scu.compare = 300
      ∧ (after (.wrMode 0x05) (after (.wrMode 0x85) (after (.wrCompareLo 0x2C) State.reset))).scu.compare = 44 := by
  decide
theorem test_rdMode : byteOf .rdMode (after (.wrMode 0x85) State.reset) = 0x85 := by decide
theorem test_rdIrqStatus : byteOf .rdIrqStatus detectedA = 0x01
    ∧ (after .rdIrqStatus detectedA).scu.rst = true := by decide
/-- V-RA5. -/
theorem test_wrIrqStatus_looks_at_bit_zero :
    (after (.wrIrqStatus 0xFE) detectedA).scu.rst = true ∧ (after (.wrIrqStatus 0x01) detectedA).scu.rst = false := by
  decide
/-- V-HE5. -/
theorem test_wrIrqStatus_ends_the_request :
    (after (.wrIrqStatus 0x01) waiting).trace = waiting.trace ++ [.cbDone 0]
      ∧ (after (.wrIrqStatus 0x01) waiting).irqOut = false := by decide
/-- V-RA6. -/
theorem test_rdIrqEn : byteOf .rdIrqEn (after (.wrIrqEn 0xFF) State.reset) = 0x01 := by decide
/-- R82's example: raw mode. -/
theorem test_wrIrqEn_raw : (after (.wrIrqEn 0x01) detectedA).irqOut = true := by decide
/-- V-SC4: the write itself fires. -/
theorem test_wrIrqEn_fires :
    let s := (atLine (after (.wrIrqEn 0x00) twoSteps) 49).beamStep
    s.seq.seqState = .idle ∧ s.scu.rst = true
      ∧ (after (.wrIrqEn 0x01) s).trace = s.trace ++ [.fire (some 0), .cbRequest 0]
      ∧ (after (.wrIrqEn 0x01) s).irqOut = true := by decide

/-! ### Command and status registers -/

/-- R83's example: `addstep 100, cb` is 0x4864. -/
theorem test_rdCmdLo :
    byteOf .rdCmdLo (after (.wrCmdHi 0x48) (after (.wrCmdLo 0x64) State.reset)) = 0x64 := by decide
theorem test_wrCmdLo : (after (.wrCmdLo 0x64) State.reset).cmdLo = 0x64
    ∧ (after (.wrCmdLo 0x64) State.reset).seq.stepCount = 0 := by decide
theorem test_rdCmdHi : byteOf .rdCmdHi (after (.wrCmdLo 0x34) State.reset) = 0x00 := by decide
/-- R83, R86, R133. -/
theorem test_wrCmdHi_runs_the_staged_word :
    (after (.wrCmdHi 0x48) (after (.wrCmdLo 0x64) State.reset)).stepAt 0 = { line := 100, cbv := true } := by decide
/-- V-SC17. -/
theorem test_wrCmdHi_reserved : (after (.wrCmdHi 0xF0) State.reset).err = { flag := true, code := 0x02 } := by decide
/-- V-RA9. -/
theorem test_rdStatus :
    byteOf .rdStatus
      (after .enable { detectedA with host := { detectedA.host with romDisabled := true } }) = 0x51 := by decide
/-- V-RA9b: 0x57 with VEC_SLOT, so 0x17 without it. -/
theorem test_rdStatus_pending : byteOf .rdStatus (after (.setDebug true) waiting) = 0x17 := by decide
/-- V-SC7, V-SC12: the first code is kept. -/
theorem test_rdErrCode :
    byteOf .rdErrCode (after (.wrCmdHi 0x70) (after .enable State.reset)) = 0x01 := by decide
/-- V-SC5: while the callback of step 0 is requested, CUR_INDEX is already 1. -/
theorem test_rdCurIndex : byteOf .rdCurIndex waiting = 0x01 := by decide
theorem test_rdCbStep : byteOf .rdCbStep waiting = 0x00
    ∧ byteOf .rdCbStep (atLine (after (.wrIrqStatus 1) waiting) 59).beamStep = 0x01 := by decide
theorem test_rdStepCount : byteOf .rdStepCount threeSteps = 0x03 := by decide
/-- V-RA13. -/
theorem test_rdStepLo : byteOf (.rdStepLo 0) (after (.addStep false 300) detectedA) = 0x2C := by decide
/-- R93's example and V-RA13. -/
theorem test_rdStepHi : byteOf (.rdStepHi 0) (after (.addStep true 300) detectedA) = 0x81
    ∧ byteOf (.rdStepHi 1) (after (.addStep true 300) detectedA) = 0x00 := by decide

/-! ### Metrics and frame clock: V-RA14, V-RA15, and the examples of R101 to R108 -/

theorem test_rdMetricsFlags : byteOf .rdMetricsFlags detectedB = 0x00 ∧ byteOf .rdMetricsFlags detectedA = 0x01 := by
  decide
theorem test_rdFps : byteOf .rdFps detectedB = 0x3C ∧ byteOf .rdFps detectedA = 0x32 := by decide
theorem test_rdMspf : byteOf .rdMspf detectedB = 0x10 ∧ byteOf .rdMspf detectedA = 0x14 := by decide
theorem test_rdTotalLinesLo : byteOf .rdTotalLinesLo detectedB = 0x06 ∧ byteOf .rdTotalLinesLo detectedA = 0x38 := by
  decide
theorem test_rdTotalLinesHi : byteOf .rdTotalLinesHi detectedB = 0x00
    ∧ byteOf .rdTotalLinesHi (after .rdTotalLinesLo detectedB) = 0x01 := by decide
theorem test_rdMeasuredLo : byteOf .rdMeasuredLo detectedB = 0x06 := by decide
theorem test_rdMeasuredHi : byteOf .rdMeasuredHi (after .rdMeasuredLo detectedB) = 0x01 := by decide
theorem test_rdFcLo : byteOf .rdFcLo (clockB 0x01FF 0 0 0) = 0xFF := by decide
/-- V-RA16, R101: the WRAP between does not tear the pair. -/
theorem test_rdFcHi : byteOf .rdFcHi (after .softWrap (after .rdFcLo (clockB 0x01FF 0 0 0))) = 0x01 := by decide
theorem test_rdSecLo : byteOf .rdSecLo (clockB 0 300 0 0) = 0x2C := by decide
theorem test_rdSecHi : byteOf .rdSecHi (after .rdSecLo (clockB 0 300 0 0)) = 0x01 := by decide
theorem test_rdMsLo : byteOf .rdMsLo (clockB 0 0 983 0) = 0xD7 := by decide
theorem test_rdMsHi : byteOf .rdMsHi (after .rdMsLo (clockB 0 0 983 0)) = 0x03 := by decide
theorem test_rdDriftLo : byteOf .rdDriftLo (clockB 0 0 0 667) = 0x9B := by decide
theorem test_rdDriftHi : byteOf .rdDriftHi (after .rdDriftLo (clockB 0 0 0 667)) = 0x02 := by decide
/-- V-RA8. -/
theorem test_rdReserved : byteOf (.rdReserved 0x3F) { detectedA with cmdLo := 0xFF } = 0x00 := by decide
theorem test_wrIgnored : after (.wrIgnored 0x30 0xFF) (clockB 7 0 0 0) = clockB 7 0 0 0 := by decide

/-! ### Commands -/

/-- V-SC16. -/
theorem test_nop : after .nop detectedA = detectedA := by decide
/-- V-TD9. -/
theorem test_detect : measuring.det = { detecting := true, prev := 100 } ∧ byteOf .rdStatus measuring = 0x08 := by
  decide
/-- V-TD11. -/
theorem test_detect_ignored : after .detect detectedB = detectedB := by decide
/-- V-SC5. -/
theorem test_enable_again :
    (after .enable waiting).seq.seqState = .idle ∧ (after .enable waiting).seq.curIndex = 0
      ∧ (after .enable waiting).scu.compare = 50 ∧ (after .enable waiting).scu.rst = false := by decide
/-- V-SC1, V-SC7. -/
theorem test_enable_default_and_error :
    (after .enable detectedA).scu.compare = 250
      ∧ (after .enable State.reset).err = { flag := true, code := 0x01 }
      ∧ (after .enable State.reset).seq.enabled = false := by decide
/-- V-SC6. -/
theorem test_disable :
    (after .disable waiting).seq.enabled = false ∧ (after .disable waiting).scu.irqEnRst = false
      ∧ (after .disable waiting).seq.seqState = .idle ∧ (after .disable waiting).scu.rst = true
      ∧ (after .disable waiting).irqOut = false := by decide
/-- E4: the sentinel, in both regions; and V-SC12. -/
theorem test_addStep_sentinel :
    (after (.addStep true 0x1FF) detectedB).stepAt 0 = { line := 250, cbv := true }
      ∧ (after (.addStep true 0x1FF) detectedA).stepAt 0 = { line := 300, cbv := true }
      ∧ (after (.addStep true 0x1FF) State.reset).err.code = 0x01
      ∧ (after (.addStep true 0x1FF) State.reset).seq.stepCount = 0 := by decide
/-- V-SC13. -/
theorem test_addStep_arms_the_first :
    (after (.addStep true 100) (after .enable detectedA)).scu.compare = 100
      ∧ (after (.addStep false 200) (after (.addStep true 100) (after .enable detectedA))).scu.compare = 100 := by
  decide
/-- V-SC11: at capacity, ignored with no error. -/
theorem test_addStep_capped :
    let full := { State.reset with seq := { State.reset.seq with stepCount := 8 } }
    after (.addStep true 0x1FF) full = full := by decide
/-- V-SC15. -/
theorem test_setDebug : (after (.setDebug true) State.reset).seq.debug = true
    ∧ byteOf .rdStatus (after (.setDebug true) State.reset) = 0x02 := by decide
/-- V-FC1, V-FC4. -/
theorem test_softWrap :
    (after .softWrap (clockB 65535 0 0 0)).clock = { frameCounter := 0, seconds := 0, millis := 16, drift := 667 }
      ∧ (after .softWrap (clockB 0 0 999 999)).clock
        = { frameCounter := 1, seconds := 1, millis := 16, drift := 666 } := by decide
/-- V-FC5, V-FC6. -/
theorem test_softWrap_ignored_and_error :
    after .softWrap (after .enable detectedB) = after .enable detectedB
      ∧ (after .softWrap State.reset).err.code = 0x01 := by decide

/-! ### The beam, the sequencer and the host -/

/-- V-SC1. -/
theorem test_fire_without_step :
    (atLine (after .enable detectedA) 249).beamStep.trace
        = [.extAck .a, .extAck .b, .matched 250, .fire none, .wrap 1, .selfAck]
      ∧ (atLine (after .enable detectedA) 249).beamStep.clock.millis = 20 := by decide
/-- V-SC3, after line 30. -/
theorem test_fire_of_the_last_step :
    let s := (atLine (atLine (atLine threeSteps 9).beamStep 19).beamStep 29).beamStep
    s.seq.curIndex = 0 ∧ s.scu.compare = 10 ∧ s.clock.frameCounter = 1 := by decide
/-- V-TD7. -/
theorem test_detection_of_region_A :
    (after .detect (atLine State.reset 311)).beamStep.metrics = detectedA.metrics := by decide
/-- V-TD6. -/
theorem test_detection_of_two_lines :
    let p : Params := { base := 0, hwLines := 2, bottomInvisible := 12, defaultLine := 1, pollThreshold := 1 }
    let s := atLine { State.reset with params := p } 1
    (after .detect s).beamStep.metrics
      = { valid := true, regionA := false, fps := 60, mspf := 16, totalLines := 262, measured := 2 } := by decide
/-- V-RA9b. -/
theorem test_outputs : waiting.irqOut = true ∧ (after (.setDebug true) waiting).dbgFlag = true := by decide
/-- V-RA12. -/
theorem test_bit_index_out_of_range :
    detectedA.runHostOp (.getbit 0x03 8) = .fault .bitIndexOutOfRange
      ∧ detectedA.runHostOp (.setbit 0x03 8 true) = .fault .bitIndexOutOfRange := ⟨rfl, rfl⟩
/-- V-RA11: `setbit IRQ_STATUS, 3, 1` writes 0x09, `setbit IRQ_STATUS, 0, 0` writes 0x00. -/
theorem test_setbit_writes :
    (nextOf (detectedA.runHostOp (.setbit 0x04 3 true))).map (·.thread.ops) = some [.write 0x04 0x09]
      ∧ (nextOf (detectedA.runHostOp (.setbit 0x04 0 false))).map (·.thread.ops) = some [.write 0x04 0x00] := by
  decide
/-- R112's example. -/
theorem test_getbit :
    (nextOf ((after .enable { detectedA with host := { detectedA.host with romDisabled := true } }).runHostOp
      (.getbit 0x0A 4))).map (·.thread.bit) = some true := by decide
/-- V-HE1. -/
theorem test_vec_slot_mismatch :
    step (withTurns (unmasked { waiting with host := { waiting.host with romDisabled := true } }) [.entry])
      = .fault .vecSlotMismatch := rfl
/-- V-HE3. -/
theorem test_nested_interrupt : (inHandler waiting).runHostOp .unmask = .fault .nestedInterrupt := rfl
/-- V-HE6. -/
theorem test_dispatch :
    ((inHandler waiting).hostTurns 4).map (·.trace) = some (waiting.trace ++ [.cbRun 0, .cbDone 0])
      ∧ ((inHandler waiting).hostTurns 4).map (·.host.hostI) = some false := by decide

/-! ### Witnesses: states and operands that meet every hypothesis of a statement

A theorem is named after the statement in Certificates/Slice0/Obligations.lean whose hypotheses it meets; a statement
with several clauses has the witness of each, at the values where clauses meet. -/

/-- One step without callback at line 100, enabled (V-SC2). -/
def oneStep : State := after .enable (after (.addStep false 100) detectedA)

/-- Eight steps configured. -/
def fullTable : State := { detectedA with seq := { detectedA.seq with stepCount := 8 } }

theorem inv_reset : State.reset.Inv := by
  constructor <;> decide

theorem inv_detectedA : detectedA.Inv := by
  constructor <;> decide

theorem inv_detectedB : detectedB.Inv := by
  constructor <;> decide

theorem inv_oneStep : oneStep.Inv := by
  constructor <;> decide

theorem inv_twoSteps : twoSteps.Inv := by
  constructor <;> decide

theorem inv_threeSteps : threeSteps.Inv := by
  constructor <;> decide

theorem inv_waiting : waiting.Inv := by
  constructor <;> decide

theorem inv_measuring : measuring.Inv := by
  constructor <;> decide

theorem inv_inHandler : (inHandler waiting).Inv := by
  constructor <;> decide

theorem inv_fullTable : fullTable.Inv := by
  constructor <;> decide

theorem witness_DecodeOfEncodeIsIdentity :
    Instr.WellFormed (.addStep true 0x1FF) ∧ Instr.WellFormed (.rdReserved 0x06)
      ∧ Instr.WellFormed (.wrIgnored 0x00 0xFF) := by decide

theorem witness_EncodeOfDecodeKeepsEveryBit :
    decodeCmd 0x49FF = .ok (.addStep true 0x1FF) ∧ busIsWrite 0x4401 = true ∧ busIsWrite 0x0AFF = false := by decide

theorem witness_StepRunsTheDecodedTransaction :
    let s := withTurns (withOps detectedA [busOp detectedA.params 0x4401]) [.host]
    s.params.Valid ∧ s.turns = .host :: [] ∧ s.thread.ops = busOp s.params 0x4401 :: []
      ∧ 0x4401 % 2 ^ 16 < 2 ^ 15 := by decide

/-- The beam's turn, a host turn with nothing to run, the recurring turns, and no turn at all. -/
theorem witness_StepRunsTheDecodedTransaction_turns :
    (detectedA.params.Valid ∧ (withTurns detectedA [.beam]).turns = .beam :: [])
      ∧ ((withTurns detectedA [.host]).turns = .host :: [] ∧ (withTurns detectedA [.host]).thread.ops = []
        ∧ detectedA.host.mainLoop = [])
      ∧ (detectedA.host.context = .mainline ∧ detectedA.host.main.ops = [])
      ∧ (detectedA.turns = [] ∧ detectedA.recurring = .beam :: [.host, .entry])
      ∧ ({ detectedA with recurring := [] } : State).turns = [] := by decide

/-- The beam moves when its turn is listed, and when no turn is. -/
theorem test_beam_turn :
    (nextOf (step (withTurns (atLine detectedA 100) [.beam]))).map (·.scu.raster) = some 101
      ∧ (nextOf (step { atLine detectedA 100 with recurring := [] })).map (·.scu.raster) = some 101 := by decide

/-- Each constraint of R8 just broken, and the same values just inside it. -/
theorem witness_ParametersOutOfRangeAreRefused :
    ([⟨63, 312, 12, 250, 250⟩, ⟨0, 1, 12, 0, 1⟩, ⟨0, 513, 12, 250, 250⟩, ⟨0, 312, 0, 250, 250⟩,
        ⟨0, 312, 263, 250, 250⟩, ⟨0, 312, 12, 312, 250⟩, ⟨0, 312, 12, 250, 0⟩, ⟨0, 312, 12, 250, 312⟩] :
          List Params).all (fun p => !decide p.Valid) = true
      ∧ ([⟨64, 312, 12, 250, 250⟩, ⟨0, 2, 12, 1, 1⟩, ⟨0, 512, 12, 250, 250⟩, ⟨0, 312, 1, 250, 250⟩,
        ⟨0, 312, 262, 250, 250⟩, ⟨0, 312, 12, 311, 250⟩, ⟨0, 312, 12, 250, 1⟩, ⟨0, 312, 12, 250, 311⟩] :
          List Params).all (fun p => decide p.Valid) = true := by decide

theorem witness_ResetSatisfiesTheInvariant :
    Params.example.Valid ∧ (311#9).toNat < Params.example.hwLines := by decide

theorem witness_EveryStepKeepsTheInvariant :
    ∃ s t : State, s.Inv ∧ step s = .next t := ⟨detectedA, _, inv_detectedA, rfl⟩

/-- R127, R133 against R40 item 8 (log 24): one step at line 100, the host writes COMPARE_LO = 32, line 32 fires and COMPARE
stays 32, and ADD_STEP then makes two steps, idle and enabled, with COMPARE still 32. -/
theorem test_fire_single_does_not_rearm :
    let fired := (atLine (after (.wrCompareLo 32) oneStep) 31).beamStep
    let t := after (.addStep false 200) fired
    fires fired.trace = [some 0] ∧ fired.scu.compare = 32
      ∧ t.seq.enabled = true ∧ t.seq.stepCount = 2 ∧ t.seq.seqState = .idle ∧ t.scu.compare = 32
      ∧ (t.stepAt t.seq.curIndex).line = 100 := by decide

theorem witness_OnlyCompareWritesBreakTheArming :
    ∃ (s t : State) (i : Instr), s.Inv ∧ s.Armed ∧ s.seq.enabled = true ∧ s.metrics.valid = true
      ∧ (∀ d, i ≠ .wrCompareLo d ∧ i ≠ .wrMode d) ∧ exec i s = .next t :=
  ⟨twoSteps, _, .enable, inv_twoSteps, by unfold State.Armed; decide, by decide, by decide, by simp, rfl⟩

theorem witness_NoFireIsPendingBetweenSteps :
    ∃ (s t u : State) (i : Instr), s.Quiet ∧ exec i s = .next t ∧ step s = .next u :=
  ⟨twoSteps, _, _, .nop, by decide, rfl, rfl⟩

theorem witness_OnlyAMatchOrAnEnableWriteFires :
    ∃ s t : State, s.Inv ∧ exec (.wrIrqEn 0x01) s = .next t :=
  ⟨twoSteps, _, inv_twoSteps, rfl⟩

/-- For every statement whose hypothesis is that no fire is pending. -/
theorem witness_Quiet : State.reset.Quiet ∧ waiting.Quiet ∧ measuring.Quiet := by decide

/-- The offsets where the two lists of R109 and R110 begin and end. -/
theorem witness_ReservedReadsAreZeroAndIgnoredWritesDoNothing :
    (0x06 : Offset) ∈ ([0x06, 0x3F] : List Offset) ∧ (0x01 : Offset) ∈ ([0x00, 0x01] : List Offset)
      ∧ 0x0A ≤ (0x0A : Offset).toNat ∧ 0x0A ≤ (0x3F : Offset).toNat ∧ waiting.Quiet := by decide

theorem witness_LatchedPairsReadConsistently :
    some Instr.rdFcLo ∉ [none, some .softWrap, some .rdSecLo] := by decide

theorem witness_AcknowledgeClearsTheLatchAndEndsTheRequest :
    ((0xFE : Byte).toNat % 2 = 0 ∧ detectedA.Quiet)
      ∧ ((0xFF : Byte).toNat % 2 = 1 ∧ detectedA.seq.seqState = .idle)
      ∧ ((0x01 : Byte).toNat % 2 = 1 ∧ waiting.seq.seqState = .cbWait) := by decide

theorem witness_EnableWriteSetsBitZeroAndMayFire :
    let s := (atLine (after (.wrIrqEn 0x00) twoSteps) 49).beamStep
    ((0x01 : Byte).toNat % 2 = 1 ∧ s.seq.enabled = true ∧ s.scu.rst = true ∧ s.seq.seqState = .idle
        ∧ s.det.detecting = false)
      ∧ (0x02 : Byte).toNat % 2 ≠ 1
      ∧ (detectedA.seq.enabled = false ∧ detectedA.det.detecting = false) := by decide

theorem witness_CmdHiWriteExecutesTheStagedWord :
    let lo := (after (.wrCmdLo 0x64) State.reset).cmdLo.toNat
    decodeCmd (BitVec.ofNat 16 (256 * (0x48 : Byte).toNat + lo)) = .ok (.addStep true 100)
      ∧ decodeCmd (BitVec.ofNat 16 (256 * (0x20 : Byte).toNat + lo)) = .error .argument
      ∧ (after (.wrCmdLo 0x64) State.reset).Quiet := by decide

/-- For the reserved words of the commands: the first and last with OP = 1, the two least bits of ADD_STEP's ARG[10:9],
and SET_DEBUG's ARG[1]. -/
theorem witness_RaisesBadCommand :
    ((0x1001 : Half).toNat / 4096 = 1 ∧ (0x1001 : Half).toNat % 4096 ≠ 0)
      ∧ ((0x1FFF : Half).toNat / 4096 = 1 ∧ (0x1FFF : Half).toNat % 4096 ≠ 0)
      ∧ ((0x4200 : Half).toNat / 4096 = 4 ∧ (0x4200 : Half).toNat / 512 % 4 ≠ 0)
      ∧ ((0x5002 : Half).toNat / 4096 = 5 ∧ (0x5002 : Half).toNat % 4096 / 2 ≠ 0)
      ∧ State.reset.Quiet ∧ State.reset.cmdLo = lowByte 0x7000 := by decide

theorem witness_DetectStartsTheMeasurementOnce :
    (detectedA.Quiet ∧ detectedA.metrics.valid = true) ∧ (measuring.Quiet ∧ measuring.det.detecting = true)
      ∧ (State.reset.metrics.valid = false ∧ State.reset.det.detecting = false) := by decide

theorem witness_EnableArmsTheScheduler :
    detectedA.metrics.valid = true ∧ State.reset.metrics.valid = false ∧ State.reset.Quiet := by decide

/-- The eighth step is the last that is appended; the sentinel needs the metrics. -/
theorem witness_AddStepAppendsOneEntry :
    fullTable.Inv ∧ fullTable.seq.stepCount.toNat = 8
      ∧ State.reset.Inv ∧ State.reset.seq.stepCount.toNat < 8 ∧ State.reset.metrics.valid = false
      ∧ detectedA.Inv ∧ detectedA.seq.stepCount.toNat < 8 ∧ detectedA.metrics.valid = true :=
  ⟨inv_fullTable, by decide, inv_reset, by decide, by decide, inv_detectedA, by decide, by decide⟩

theorem witness_SoftWrapRunsOneWrapWhileDisabled :
    (twoSteps.seq.enabled = true ∧ twoSteps.Quiet)
      ∧ (State.reset.seq.enabled = false ∧ State.reset.metrics.valid = false)
      ∧ (detectedB.seq.enabled = false ∧ detectedB.metrics.valid = true) := by decide

theorem witness_WrapUpdatesTheFrameClock : detectedB.Inv ∧ detectedB.metrics.valid = true :=
  ⟨inv_detectedB, by decide⟩

theorem witness_FrameClockClosedForms : detectedA.metrics.Known ∧ detectedB.metrics.Known := by
  decide

/-- The WRAP tables' rows k = 6 in Region B and k = 2 in Region A. -/
theorem test_wrap_tables :
    FrameClock.zero.wrapTimes detectedB.metrics 6 = { frameCounter := 6, seconds := 0, millis := 100, drift := 2 }
      ∧ FrameClock.zero.wrapTimes detectedA.metrics 2
        = { frameCounter := 2, seconds := 0, millis := 40, drift := 0 } := by decide

theorem witness_OnlyWrapChangesTheFrameClock :
    ∃ s t : State, s.Inv ∧ step s = .next t := ⟨oneStep, _, inv_oneStep, rfl⟩

theorem witness_FireSingleWrapsThenRequestsOrAcknowledges :
    detectedA.seq.stepCount = 0 ∧ (oneStep.seq.stepCount = 1 ∧ (oneStep.stepAt 0).cbv = false)
      ∧ ((after (.addStep true 50) detectedA).seq.stepCount = 1
        ∧ ((after (.addStep true 50) detectedA).stepAt 0).cbv = true) := by decide

theorem witness_FireMultiRearmsThenWrapsThenRequestsOrAcknowledges :
    (2 ≤ twoSteps.seq.stepCount.toNat ∧ twoSteps.seq.stepCount.toNat ≤ 8
        ∧ (twoSteps.stepAt twoSteps.seq.curIndex).cbv = true)
      ∧ (2 ≤ threeSteps.seq.stepCount.toNat ∧ threeSteps.seq.stepCount.toNat ≤ 8
        ∧ (threeSteps.stepAt threeSteps.seq.curIndex).cbv = false) := by decide

/-- The last line rolls over to line 0, where the reset COMPARE matches; an enabled match; a match in CB_WAIT. -/
theorem witness_BeamStepAdvancesMatchesSamplesSettles :
    (atLine detectedA 311).beamStep.scu.raster = 0
      ∧ (atLine twoSteps 49).seq.enabled = true ∧ (atLine twoSteps 49).scu.irqEnRst = true
      ∧ (atLine twoSteps 49).seq.seqState = .idle
      ∧ (BitVec.ofNat 9 (((atLine twoSteps 49).scu.raster.toNat + 1) % twoSteps.params.hwLines) : Line)
        = twoSteps.scu.compare
      ∧ (BitVec.ofNat 9 (((atLine waiting 59).scu.raster.toNat + 1) % waiting.params.hwLines) : Line)
        = waiting.scu.compare
      ∧ waiting.seq.seqState = .cbWait := by decide

/-- A rollover that measures 300 (Region B) and one that measures 301 (Region A). -/
theorem witness_DetectorSampleMeasuresAtTheRollover :
    (measuring.det.detecting = true ∧ measuring.det.prev.toNat ≤ measuring.scu.raster.toNat)
      ∧ ((0#9).toNat < (299#9).toNat ∧ (299#9).toNat + 1 ≤ 300)
      ∧ ((0#9).toNat < (300#9).toNat ∧ 300 < (300#9).toNat + 1) := by decide

/-- A measurement from the last line ends at the first beam step; with none, it still runs. -/
theorem witness_DetectionMeasuresTheFrameInTime :
    ∃ (s u : State), s.Inv ∧ s.metrics.valid = false ∧ s.det.detecting = false ∧ exec .detect s = .next u
      ∧ [some Instr.nop].count none < s.params.hwLines - s.scu.raster.toNat
      ∧ s.params.hwLines - s.scu.raster.toNat ≤ [none, some Instr.nop].count none :=
  ⟨atLine State.reset 311, _, by constructor <;> decide, by decide, by decide, rfl, by decide, by decide⟩

/-- A weakly fair run from a measurement that has just started: the host is idle and masked, and the beam moves. -/
theorem witness_DetectionMeasuresTheFrameInTime_fair :
    ∃ (σ : Nat → Turn) (r : Nat → State), r 0 = measuring ∧ ScheduledRun σ r ∧ WeaklyFair σ r := by
  have hf : ∀ n, (measuring.beamSteps n).turns = [] ∧ (measuring.beamSteps n).params = measuring.params
      ∧ (measuring.beamSteps n).host = measuring.host := by
    intro n
    induction n with
    | zero => decide
    | succ n ih =>
      have h := State.beamStep_outside (measuring.beamSteps n)
      exact ⟨h.1.trans ih.1, h.2.2.1.trans ih.2.1, h.2.2.2.trans ih.2.2⟩
  refine ⟨fun _ => .beam, measuring.beamSteps, rfl, fun n => ?_, fun a n hr => ?_⟩
  · refine ⟨_, State.goesOn_refl _, ?_⟩
    have hs : ({ measuring.beamSteps n with turns := [.beam] } : State).params.Valid := by
      rw [show ({ measuring.beamSteps n with turns := [.beam] } : State).params = _ from (hf n).2.1]
      decide
    have ht : ({ measuring.beamSteps n with turns := [] } : State) = measuring.beamSteps n := by
      rw [← (hf n).1]
    show (if _ then _ else _) = _
    rw [if_pos hs]
    show Host.Outcome.next ({ measuring.beamSteps n with turns := [] } : State).beamStep = _
    rw [ht]
    rfl
  · cases a with
    | beam => exact ⟨n, le_refl _, rfl⟩
    | host =>
      have hm : measuring.host.context = .mainline ∧ measuring.host.main.ops = [] ∧ measuring.host.mainLoop = [] := by
        decide
      have := hr n (le_refl _)
      rw [← (hf n).2.2] at hm
      simp [State.ready, State.gotoMain_loop _ hm.1 hm.2.1, hm.2.2] at this
    | entry =>
      have := hr n (le_refl _)
      simp only [State.ready, State.entryEnabled, (hf n).2.2] at this
      have hm : measuring.host.hostI = true := by decide
      simp [hm] at this

theorem witness_DetectionMasksTheInterruptAndTheSequencer :
    ∃ (s t : State) (i : Instr), s.Inv ∧ s.det.detecting = true ∧ exec i s = .next t :=
  ⟨measuring, _, .enable, inv_measuring, by decide, rfl⟩

theorem witness_MetricsAreWrittenOnce :
    (∃ s t : State, s.Inv ∧ step s = .next t ∧ s.metrics.valid = true)
      ∧ ∃ s t : State, s.Inv ∧ step s = .next t ∧ t.metrics ≠ s.metrics :=
  ⟨⟨detectedA, _, inv_detectedA, rfl, by decide⟩,
    ⟨after .detect (atLine State.reset 311), _, by constructor <;> decide, rfl, by decide⟩⟩

theorem witness_MatchDuringACallbackIsLost : waiting.Inv ∧ waiting.seq.seqState = .cbWait :=
  ⟨inv_waiting, by decide⟩

theorem witness_SingleLineWrapsOncePerFrame :
    (∃ s : State, s.Inv ∧ s.seq.enabled = true ∧ s.scu.irqEnRst = true ∧ s.seq.seqState = .idle
        ∧ s.seq.stepCount = 0 ∧ s.scu.compare.toNat < s.params.hwLines)
      ∧ (∃ s : State, s.Inv ∧ s.seq.enabled = true ∧ s.scu.irqEnRst = true ∧ s.seq.seqState = .idle
        ∧ (s.seq.stepCount = 1 ∧ (s.stepAt 0).cbv = false) ∧ s.scu.compare.toNat < s.params.hwLines) :=
  ⟨⟨after .enable detectedA, by constructor <;> decide, by decide⟩,
    ⟨oneStep, inv_oneStep, by decide⟩⟩

/-- With the beam before the first line, and at the last. -/
theorem witness_AscendingStepsFireOncePerFrame :
    ∀ l : Line, l = 9 ∨ l = 30 →
      let s := atLine threeSteps l
      s.Inv ∧ s.Armed ∧ s.seq.enabled = true ∧ s.scu.irqEnRst = true ∧ s.seq.seqState = .idle
        ∧ 2 ≤ s.seq.stepCount.toNat ∧ s.seq.curIndex = 0
        ∧ (∀ k : StepIndex, k.toNat < s.seq.stepCount.toNat →
          (s.stepAt k).cbv = false ∧ (s.stepAt k).line.toNat < s.params.hwLines)
        ∧ (∀ j k : StepIndex, j.toNat < k.toNat → k.toNat < s.seq.stepCount.toNat →
          (s.stepAt j).line.toNat < (s.stepAt k).line.toNat)
        ∧ (s.scu.raster.toNat < (s.stepAt 0).line.toNat
          ∨ (s.stepAt (BitVec.ofNat 3 (s.seq.stepCount.toNat - 1))).line.toNat ≤ s.scu.raster.toNat) := by
  rintro l (rfl | rfl)
  all_goals
    refine ⟨?_, by unfold State.Armed; decide, by decide, by decide, by decide, by decide, by decide, by decide,
      by decide, by decide⟩
    constructor <;> decide

theorem witness_ErrorStateIsStickyAndKeepsTheFirstCode :
    (∃ s t : State, step s = .next t ∧ s.err.flag = true)
      ∧ ∃ s t : State, step s = .next t ∧ t.err ≠ s.err :=
  ⟨⟨after .enable State.reset, _, rfl, by decide⟩,
    ⟨State.reset.withFetchWord 16 0x4970, _, rfl, by decide⟩⟩

theorem witness_OutputsFollowTheirEquations :
    measuring.det.detecting = true ∧ (waiting.det.detecting = false ∧ waiting.seq.enabled = true)
      ∧ (detectedA.det.detecting = false ∧ detectedA.seq.enabled = false) := by decide

theorem witness_StepTableOnlyGrows :
    ∃ (s t : State) (k : StepIndex), s.Inv ∧ step s = .next t ∧ k.toNat < s.seq.stepCount.toNat :=
  ⟨twoSteps, _, 1, inv_twoSteps, rfl, by decide⟩

theorem witness_TransactionsLeaveTheBeamAndTheHostAlone :
    ∃ t, exec .softWrap detectedB = .next t ∧ t.clock ≠ detectedB.clock := ⟨_, rfl, by decide⟩

theorem witness_DebugDoesNotChangeBehaviour :
    Instr.wrCmdHi 0x50 ≠ .rdStatus ∧ ∃ t, exec (.wrCmdHi 0x50) waiting = .next t := ⟨by decide, _, rfl⟩

theorem witness_ModeOtherDoesNotChangeBehaviour :
    Instr.wrMode 0x80 ≠ .rdMode ∧ ∃ t, exec (.wrMode 0x80) waiting = .next t := ⟨by decide, _, rfl⟩

/-- An entry that runs the dispatcher, one in raw mode, one that faults, and the three cases without an entry. -/
theorem witness_InterruptEntryMasksAndRunsTheHandler :
    (∀ s ∈ [withTurns (unmasked waiting) [.entry], withTurns (unmasked (after (.wrIrqEn 1) detectedA)) [.entry]],
        s.params.Valid ∧ s.turns = .entry :: [] ∧ s.irqOut = true ∧ s.host.hostI = false
          ∧ s.host.context = .mainline ∧ (s.seq.enabled = true → s.host.romDisabled = s.seq.vecSlot))
      ∧ (unmasked waiting).seq.enabled = true ∧ true ≠ (unmasked waiting).seq.vecSlot
      ∧ detectedA.irqOut = false ∧ waiting.host.hostI = true ∧ (inHandler waiting).host.context = .interrupt := by
  decide

theorem witness_HostOperationsActOnTheHostOnly :
    waiting.host.context = .mainline ∧ (inHandler waiting).host.context = .interrupt := by decide

theorem witness_DispatcherRunsTheRequestedCallback :
    (inHandler waiting).Inv ∧ (inHandler waiting).host.context = .interrupt
      ∧ (inHandler waiting).host.intr.ops = dispatchOps (inHandler waiting).params
      ∧ (inHandler waiting).seq.seqState = .cbWait
      ∧ ((inHandler waiting).callback (inHandler waiting).seq.cbStep).body = [] :=
  ⟨inv_inHandler, by decide⟩

/-- R166, D43: a callback that saves CMD_LO, issues SET_DEBUG 1 and writes CMD_LO back. Its first call found 0x32 there, its
second 0x64, and each restores what it found (log 6). -/
def saving (b : Byte) : List HostOp := [.read 0x08, .cmd 0x5001, .write 0x08 b]

theorem test_callback_restores_what_it_found :
    let r : HostRoutine := { calls := [saving 0x32, saving 0x64], later := [] }
    let s := { waiting with host := { waiting.host with hostCb := .replicate 8 r } }
    let first := (inHandler { s with cmdLo := 0x32 }).hostTurns 8
    let second := first.bind fun t => (inHandler { t with cmdLo := 0x64 }).hostTurns 8
    first.map (fun t => (t.cmdLo, t.host.context)) = some (0x32, .mainline)
      ∧ second.map (fun t => (t.cmdLo, t.host.context)) = some (0x64, .mainline) := by decide

/-! A looping mainline (R164): an infinite, weakly fair run of the step function in which mainline, masked and with the
scheduler disabled, makes `softwrap` after `softwrap` without end. -/

/-- `main: softwrap ; goto main`. -/
def looping : State := { detectedB with host := { detectedB.host with mainLoop := [.cmd 0x6000] } }

/-- Two passes of the loop count two frames. -/
theorem test_main_loop_repeats : (looping.hostTurns 4).map (·.clock.frameCounter) = some 2 := by decide

/-- Masked in mainline, before `softwrap` or between its two writes. -/
structure Looping (s : State) : Prop where
  params : s.params = looping.params
  masked : s.host.hostI = true
  mainline : s.host.context = .mainline
  loop : s.host.mainLoop = [.cmd 0x6000]
  ops : s.host.main.ops = [] ∨ s.host.main.ops = [.write 0x09 0x60]

/-- `cmd 0x6000` stages its low byte and has its high byte left to write. -/
theorem Looping.stages (s : State) (h : Looping s) (ho : s.host.main.ops = []) :
    ∃ t, s.hostTurn = .next t ∧ Looping t := by
  have hp : s.gotoMain.dropOp.params = looping.params := by
    simpa [State.dropOp, s.gotoMain_frame.block.params] using h.params
  have hh : s.gotoMain.dropOp.host = s.host := by
    rw [s.gotoMain_loop h.mainline ho]
    have hl : s.host.mainLoop.tail = s.host.main.ops := by simp [h.loop, ho]
    simp only [State.dropOp, State.mapThread, h.mainline, hl]
    rw [← h.mainline]
  let u : State := ({ s.gotoMain.dropOp with cmdLo := 0x00 } : State).settle
  have hu : u.params = looping.params ∧ u.host = s.host :=
    ⟨(State.settle_frame _).params.trans hp, (State.settle_frame _).host.trans hh⟩
  refine ⟨u.pushOps [.write 0x09 0x60], ?_, ?_, ?_, ?_, ?_, .inr ?_⟩
  · have hg : s.gotoMain.thread.ops = [.cmd 0x6000] := by
      simp [s.gotoMain_loop h.mainline ho, State.mapThread, State.thread, h.mainline, h.loop]
    unfold State.hostTurn
    rw [hg]
    simp only [State.runHostOp, HostOp.check, HostOp.cycle, State.transact, hp]
    show thenHost (.next u) (HostOp.after (.cmd 0x6000)) = _
    simp only [thenHost, HostOp.after, hu.1]
    rfl
  · simpa using hu.1
  · simpa [hu.2] using h.masked
  · simpa [hu.2] using h.mainline
  · simpa [hu.2] using h.loop
  · simp [State.pushOps, State.mapThread, hu.2, h.mainline, ho]

/-- The high byte runs, and mainline has nothing left. -/
theorem Looping.runs (s : State) (h : Looping s) (ho : s.host.main.ops = [.write 0x09 0x60]) :
    ∃ t, s.hostTurn = .next t ∧ Looping t := by
  have hp : s.dropOp.params = looping.params := by simpa [State.dropOp] using h.params
  obtain ⟨u, hu⟩ := exec_settles (.wrCmdHi 0x60) s.dropOp
  obtain ⟨h1, h2⟩ := exec_wrCmdHi_outside 0x60 _ _ hu
  have hh : u.settle.host = { s.host with main := { s.host.main with ops := [] } } := by
    rw [h2]
    simp [State.dropOp, State.mapThread, h.mainline, ho]
  refine ⟨u.settle, ?_, h1.trans hp, ?_, ?_, ?_, .inl ?_⟩
  · rw [s.hostTurn_busy (.write 0x09 0x60) [] (by simp [State.thread, h.mainline, ho])]
    simp only [State.runHostOp, HostOp.check, HostOp.cycle, State.transact, hp]
    show thenHost (exec (.wrCmdHi 0x60) s.dropOp) _ = _
    rw [hu]
    rfl
  all_goals rw [hh]
  exacts [h.masked, h.mainline, h.loop]

/-- Every turn goes on. -/
theorem Looping.step (s : State) (h : Looping s) : ∃ t, Machine.step s = .next t ∧ Looping t := by
  have hv : s.params.Valid := by rw [h.params]; decide
  have beam : ∀ u : State, Looping u → Looping u.beamStep := by
    intro u hu
    obtain ⟨-, -, hp, hh⟩ := u.beamStep_outside
    exact ⟨hp.trans hu.params, hh ▸ hu.masked, hh ▸ hu.mainline, hh ▸ hu.loop, hh ▸ hu.ops⟩
  unfold Machine.step State.takeTurn
  rw [if_pos hv]
  split
  · exact ⟨_, rfl, beam s h⟩
  · rename_i a ts _
    have hu : Looping { s with turns := ts } := ⟨h.params, h.masked, h.mainline, h.loop, h.ops⟩
    cases a with
    | beam => exact ⟨_, rfl, beam _ hu⟩
    | host => exact hu.ops.elim (hu.stages _) (hu.runs _)
    | entry =>
      refine ⟨_, if_neg ?_, hu⟩
      simp [State.entryEnabled, h.masked]

/-- The state after `n` steps from `looping`. -/
def loopingAt : Nat → State
  | 0 => looping
  | n + 1 => (nextOf (step (loopingAt n))).getD looping

/-- R164, R178: a weakly fair run of the step function in which mainline takes steps without end. -/
theorem test_mainline_loops_without_end :
    StepRun loopingAt ∧ WeaklyFair (fun n => (loopingAt n).mover) loopingAt
      ∧ ∀ n, ∃ m, n ≤ m ∧ (loopingAt m).mover = .host ∧ (loopingAt m).ready .host = true := by
  have hl : ∀ n, Looping (loopingAt n) := by
    intro n
    induction n with
    | zero => exact ⟨rfl, rfl, rfl, rfl, .inl rfl⟩
    | succ n ih =>
      obtain ⟨t, ht, h⟩ := ih.step
      simpa [loopingAt, ht, nextOf] using h
  have hr : StepRun loopingAt := by
    intro n
    obtain ⟨t, ht, -⟩ := (hl n).step
    simp [loopingAt, ht, nextOf]
  have ha : ∀ a : Turn, a ∈ (loopingAt 0).recurring := by intro a; cases a <;> decide
  refine ⟨hr, hr.weaklyFair _ ha, fun n => ?_⟩
  obtain ⟨m, hm, hm'⟩ := StepRun.moves_again _ hr .host (ha .host) n
  exact ⟨m, hm, hm', State.ready_mainLoop _ (hl m).mainline (by simp [(hl m).loop])⟩

theorem witness_SetbitAndGetbit : detectedA.params.Valid ∧ 7 < 8 ∧ 7 ≤ 7 := by decide

theorem witness_CmdPseudoWritesLowThenHigh :
    let s := withOps detectedA [.cmd 0x49FF]
    s.params.Valid ∧ s.Quiet ∧ s.thread.ops = .cmd 0x49FF :: [] := by decide

theorem witness_PairedAccessPseudosTakeEffect :
    ∀ ops ∈ [[HostOp.rd16 0x30], [.rdRaster], [.setCompare 300]],
      (withOps detectedA ops).Inv ∧ (withOps detectedA ops).thread.ops = ops := by
  intro ops h
  refine ⟨?_, rfl⟩
  obtain ⟨h1, h2, h3, h4, h5, h6, h7, h8, h9, h10, h11, h12, h13, h14⟩ := inv_detectedA
  exact ⟨h1, h2, h3, h4, h5, h6, h7, h8, h9, h10, h11, h12, h13, h14⟩

/-- The raster just below P_POLL_THRESHOLD, and at it; and the two ways the enabled branch's comparison goes. -/
theorem witness_WaitFrameFollowsItsTwoBranches :
    ((after .enable detectedA).seq.enabled = true
        ∧ (after .enable detectedA).clock.frameCounter = (after .enable detectedA).host.lastFrame)
      ∧ (atLine (after .enable detectedA) 249).beamStep.clock.frameCounter
        ≠ (atLine (after .enable detectedA) 249).beamStep.host.lastFrame
      ∧ (atLine detectedA 249).scu.raster.toNat < detectedA.params.pollThreshold
      ∧ detectedA.params.pollThreshold ≤ (atLine detectedA 250).scu.raster.toNat
      ∧ detectedA.seq.enabled = false ∧ detectedA.metrics.valid = true := by decide

end Sys2Proof.Tests
end

section
/-! SUPPORT. The transactions of host operations: an access at a register's offset is in the window and is exec of what
its word decodes to (spec/20_memory.md R42, spec/30_encoding.md R62). -/

namespace Sys2Proof.Machine

/-- P_BASE + OFF is one of the window's 64 addresses (R42). -/
@[simp] theorem regRead_inWindow (p : Params) (off : Offset) : (regRead p off).inWindow p = true := by
  simpa [regRead, BusCycle.inWindow] using off.isLt

@[simp] theorem regWrite_inWindow (p : Params) (off : Offset) (d : Byte) : (regWrite p off d).inWindow p = true :=
  regRead_inWindow p off

@[simp] theorem regRead_word (p : Params) (off : Offset) : (regRead p off).word p = busWord false off 0 := by
  simp [regRead, BusCycle.word]

@[simp] theorem regWrite_word (p : Params) (off : Offset) (d : Byte) : (regWrite p off d).word p = busWord true off d := by
  simp [regWrite, BusCycle.word]

/-- A read at an offset is the read the offset selects (R42, R71). -/
theorem State.transact_regRead (s : State) (off : Offset) :
    s.transact (regRead s.params off) = exec (decodeRead off) s := by
  simp [State.transact]

/-- A write at an offset is the write the offset selects (R42, R72). -/
theorem State.transact_regWrite (s : State) (off : Offset) (d : Byte) :
    s.transact (regWrite s.params off d) = exec (decodeWrite off d) s := by
  simp [State.transact]

/-- After a plain read or write the host computes nothing. -/
theorem thenHost_self (r : Result) : thenHost r (fun t => t) = r := by
  cases r <;> rfl

/-- The host operation of a BUS15 word runs what the word decodes to (R62, R67). -/
theorem State.runHostOp_busOp (s : State) (w : BusWord) :
    s.runHostOp (busOp s.params w) = exec (decodeBus w) s := by
  unfold busOp decodeBus
  split
  · exact (thenHost_self _).trans (s.transact_regWrite _ _)
  · exact (thenHost_self _).trans (s.transact_regRead _)

end Sys2Proof.Machine
end

section
/-! SUPPORT. What the next step is, told by the turn that stands next (spec/00_scope.md R11, R123, R164): the equations of
step, where Laws/Step.lean has its inversion. -/

namespace Sys2Proof.Machine

/-! ### Whose turn it is -/

/-- A listed turn is taken off and given to its agent (R11). -/
theorem step_turn (s : State) (t : Turn) (ts : List Turn) (hv : s.params.Valid) (ht : s.turns = t :: ts) :
    step s = ({ s with turns := ts } : State).agentTurn t := by
  have hn : s.nextTurns = t :: ts := by simp [State.nextTurns, ht]
  rw [step, if_pos hv, State.takeTurn, hn]

/-- The recurring turns come when none is listed (log 5). -/
theorem step_recurring (s : State) (t : Turn) (ts : List Turn) (hv : s.params.Valid) (hn : s.turns = [])
    (hr : s.recurring = t :: ts) : step s = step { s with turns := t :: ts } := by
  have hs : s.nextTurns = t :: ts := by simp [State.nextTurns, hn, hr]
  rw [step_turn { s with turns := t :: ts } t ts hv rfl, step, if_pos hv, State.takeTurn, hs]

/-- The beam moves when there is no turn at all (log 5). -/
theorem step_no_turn (s : State) (hv : s.params.Valid) (hn : s.turns = []) (hr : s.recurring = []) :
    step s = .next s.beamStep := by
  have hs : s.nextTurns = [] := by simp [State.nextTurns, hn, hr]
  rw [step, if_pos hv, State.takeTurn, hs]

/-! ### The current thread -/

/-- A change that leaves the current thread as it is leaves the state as it is. -/
theorem State.mapThread_self (s : State) (f : HostThread → HostThread) (h : f s.thread = s.thread) :
    s.mapThread f = s := by
  unfold State.thread at h
  unfold State.mapThread
  split at h <;> rw [h]

/-- Two changes of the current thread are one. -/
theorem State.mapThread_mapThread (s : State) (f g : HostThread → HostThread) :
    (s.mapThread f).mapThread g = s.mapThread fun t => g (f t) := by
  cases hc : s.host.context <;> simp [State.mapThread, hc]

/-- The turns and the current thread are changed apart. -/
theorem State.mapThread_withTurns (s : State) (ts : List Turn) (f : HostThread → HostThread) :
    { s.mapThread f with turns := ts } = ({ s with turns := ts } : State).mapThread f := by
  cases hc : s.host.context <;> simp [State.mapThread, hc]

/-- An operation put first and taken off again leaves the state as it was. -/
theorem State.dropOp_pushOps_single (s : State) (op : HostOp) : (s.pushOps [op]).dropOp = s :=
  (s.mapThread_mapThread _ _).trans (s.mapThread_self _ rfl)

/-! ### The host's turn -/

/-- A host with nothing to run and no main loop to begin stays where it is. -/
theorem State.gotoMain_idle (s : State) (h : s.gotoMain.thread.ops = []) : s.gotoMain = s := by
  by_cases ho : s.thread.ops = []
  · cases hc : s.host.context with
    | mainline =>
      have hm : s.host.main.ops = [] := by simpa [State.thread, hc] using ho
      rw [s.gotoMain_loop hc hm] at h ⊢
      have hl : s.host.mainLoop = [] := by simpa using h
      exact s.mapThread_self _ (by rw [hl, ← ho])
    | interrupt => exact s.gotoMain_interrupt hc
  · exact s.gotoMain_busy ho

/-- Beginning the main loop again is no step of its own: the same host turn runs what it begins with (R164). -/
theorem State.hostTurn_gotoMain (s : State) : s.gotoMain.hostTurn = s.hostTurn := by
  cases h : s.gotoMain.thread.ops with
  | nil => rw [s.gotoMain_idle h]
  | cons op rest =>
    rw [s.gotoMain.hostTurn_busy op rest h]
    unfold State.hostTurn
    rw [h]

/-- A host turn with nothing to run only passes (log 5). -/
theorem State.hostTurn_idle (s : State) (h : s.gotoMain.thread.ops = []) : s.hostTurn = .next s := by
  unfold State.hostTurn
  rw [h]

/-- Nothing in the current thread, and in mainline no main loop: a host turn only passes (log 5). -/
theorem step_host_idle (s : State) (ts : List Turn) (hv : s.params.Valid) (ht : s.turns = .host :: ts)
    (ho : s.thread.ops = []) (hl : s.host.context = .mainline → s.host.mainLoop = []) :
    step s = .next { s with turns := ts } := by
  let u : State := { s with turns := ts }
  refine (step_turn s .host ts hv ht).trans (u.hostTurn_idle ?_)
  cases hc : s.host.context with
  | mainline =>
    have hm : s.host.main.ops = [] := by simpa [State.thread, hc] using ho
    rw [u.gotoMain_loop hc hm, State.mapThread_thread]
    exact hl hc
  | interrupt => rw [u.gotoMain_interrupt hc]; exact ho

/-- Mainline with nothing left runs on with its main loop as what it has to run (R164). -/
theorem step_host_mainLoop (s : State) (ts : List Turn) (hv : s.params.Valid) (ht : s.turns = .host :: ts)
    (hc : s.host.context = .mainline) (ho : s.host.main.ops = []) :
    step s = step { s with host := { s.host with main := { s.host.main with ops := s.host.mainLoop } } } := by
  let u : State := { s with turns := ts }
  have hu : u.gotoMain = { u with host := { u.host with main := { u.host.main with ops := u.host.mainLoop } } } := by
    rw [u.gotoMain_loop hc ho]
    unfold State.mapThread
    simp [u, hc]
  rw [step_turn s .host ts hv ht, step_turn _ .host ts (by exact hv) (by exact ht)]
  exact u.hostTurn_gotoMain.symm.trans (congrArg State.hostTurn hu)

/-- The host's next operation, a transaction, is exec of what its word decodes to (R11, R42). -/
theorem step_host_busOp (s : State) (ts : List Turn) (rest : List HostOp) (w : BusWord) (hv : s.params.Valid)
    (ht : s.turns = .host :: ts) (ho : s.thread.ops = busOp s.params w :: rest) :
    step s = exec (decodeBus w) ({ s with turns := ts } : State).dropOp := by
  let u : State := { s with turns := ts }
  have hp : u.dropOp.params = s.params := State.mapThread_params _ _
  calc step s = u.hostTurn := step_turn s .host ts hv ht
    _ = u.dropOp.runHostOp (busOp s.params w) := u.hostTurn_busy _ rest ho
    _ = exec (decodeBus w) u.dropOp := by rw [← hp]; exact State.runHostOp_busOp _ w

/-! ### Placing an instruction -/

/-- A table word below 0x8000 is placed as the transaction it is (log 9). -/
theorem encodedOfTableWord_bus (n w : Nat) (h : w % 2 ^ n < 2 ^ 15) :
    encodedOfTableWord n w = .bus (BitVec.ofNat 15 (w % 2 ^ n)) := if_pos h

/-- The step after placing a transaction is exec of its instruction on the state before (log 7). -/
theorem step_placeWord_bus (s : State) (w : BusWord) (hv : s.params.Valid) :
    step (s.placeWord (.bus w)) = exec (decodeBus w) s := by
  have hp : (s.placeWord (.bus w)).params = s.params := State.pushOps_params _ _
  have ho : (s.placeWord (.bus w)).thread.ops = busOp (s.placeWord (.bus w)).params w :: s.thread.ops := by
    rw [hp]
    exact congrArg HostThread.ops (State.pushOps_thread { s with turns := .host :: s.turns } [busOp s.params w])
  rw [step_host_busOp _ s.turns _ w (hp ▸ hv) (State.pushOps_turns _ _) ho]
  congr 1
  calc ({ s.placeWord (.bus w) with turns := s.turns } : State).dropOp
      = (s.pushOps [busOp s.params w]).dropOp := congrArg State.dropOp (State.mapThread_withTurns _ _ _)
    _ = s := s.dropOp_pushOps_single _

end Sys2Proof.Machine
end

section
/-! PROOFS. The scope's obligations (spec/00_scope.md): what a step runs, and the configurations it refuses. -/

namespace Sys2Proof.Machine

/-- Settles O6, by the equation of step for each turn that can stand next. -/
theorem stepRunsTheDecodedTransaction : Obligations.StepRunsTheDecodedTransaction := by
  refine ⟨step_host_busOp, fun s n w hv hw => ?_, fun s ts hv => ⟨?_, ?_, ?_⟩, fun s hv hn => ⟨?_, ?_⟩⟩
  · rw [State.withFetchWord, encodedOfTableWord_bus n w hw]
    exact step_placeWord_bus s _ hv
  · exact step_turn s .beam ts hv
  · exact step_host_idle s ts hv
  · exact step_host_mainLoop s ts hv
  · exact step_no_turn s hv hn
  · exact fun t ts => step_recurring s t ts hv hn

/-- Settles O7: each of the eight bounds just broken contradicts its conjunct of R8. -/
theorem parametersOutOfRangeAreRefused : Obligations.ParametersOutOfRangeAreRefused := by
  intro s hbad
  refine if_neg fun hv => ?_
  obtain ⟨hbase, ⟨hlines, hlines'⟩, ⟨hbottom, hbottom'⟩, hdefault, hpoll, hpoll'⟩ := hv
  omega

end Sys2Proof.Machine
end

section
/-! SUPPORT. What every step of the block can do, said once (spec/00_scope.md R11, spec/40_register_access.md R71, R72):
the own effect of each instruction before its settle, and each step of the machine as one move of the block between changes
of the host's own code. -/

namespace Sys2Proof.Machine

/-! ### The instructions' own effects -/

/-- ENABLE's effect once the metrics are valid (R131). -/
def State.startScheduler (s : State) : State :=
  { (s.emit (.extAck .a)).emit (.extAck .b) with
    scu := { s.scu with rst := false, compare := s.firstLine, irqEnRst := true }
    seq := { s.seq with seqState := .idle, curIndex := 0, vecSlot := s.host.romDisabled, enabled := true } }

theorem State.runEnable_valid (s : State) (h : s.metrics.valid = true) : s.runEnable = s.startScheduler :=
  if_pos h

/-- The end of an outstanding callback request (R80). -/
def State.endRequest (s : State) : State :=
  ({ s with scu := { s.scu with rst := false }, seq := { s.seq with seqState := .idle } } : State).emit
    (.cbDone s.seq.cbStep)

/-- What an instruction can do before its settle: one straight update for each branch of its rule. COMPARE is the host's to
write only by the two constructors that name the instruction (R76, R78). -/
inductive State.Effect (s : State) : Instr → State → Prop
  | nothing (i : Instr) : s.Effect i s
  | read (i : Instr) (h : HoldLatches) (d : Byte) : s.Effect i (({ s with hold := h } : State).returnByte d)
  | stage (i : Instr) (d : Byte) : s.Effect i { s with cmdLo := d }
  | compareLo (d : Byte) :
    s.Effect (.wrCompareLo d) { s with scu := { s.scu with compare := withLineLow s.scu.compare d } }
  | mode (d : Byte) :
    s.Effect (.wrMode d)
      { s with
        scu := { s.scu with compare := withLineHigh s.scu.compare (modeLineHigh d), modeOther := modeRest d } }
  | irqEn (i : Instr) (b : Bool) : s.Effect i { s with scu := { s.scu with irqEnRst := b } }
  | clearRst (i : Instr) (hs : s.seq.seqState = .idle) : s.Effect i { s with scu := { s.scu with rst := false } }
  | endRequest (i : Instr) (hs : s.seq.seqState = .cbWait) : s.Effect i s.endRequest
  | detect (i : Instr) (hv : s.metrics.valid = false) (hd : s.det.detecting = false) :
    s.Effect i { s with det := { detecting := true, prev := s.scu.raster } }
  | enable (i : Instr) (hv : s.metrics.valid = true) : s.Effect i s.startScheduler
  | disable (i : Instr) : s.Effect i s.runDisable
  | append (i : Instr) (e : StepEntry) (hn : s.seq.stepCount.toNat < 8) : s.Effect i (s.appendStep e hn)
  | setDebug (i : Instr) (d : Bool) : s.Effect i (s.runSetDebug d)
  | wrap (i : Instr) (he : s.seq.enabled = false) (hv : s.metrics.valid = true) : s.Effect i s.wrap
  | error (i : Instr) (e : BlockError) : s.Effect i (s.raiseError e)

theorem State.acknowledge_effect (s : State) (i : Instr) : s.Effect i s.acknowledge := by
  unfold State.acknowledge
  split
  · exact .clearRst i ‹_›
  · exact .endRequest i ‹_›

theorem State.runDetect_effect (s : State) (i : Instr) : s.Effect i s.runDetect := by
  unfold State.runDetect
  split
  · exact .nothing i
  · rename_i h
    have ⟨hv, hd⟩ : s.metrics.valid = false ∧ s.det.detecting = false := by simpa using h
    exact .detect i hv hd

theorem State.runEnable_effect (s : State) (i : Instr) : s.Effect i s.runEnable := by
  unfold State.runEnable
  split
  · exact .enable i ‹_›
  · exact .error i _

theorem State.runAddStep_effect (s : State) (i : Instr) (cbv : Bool) (line : Line) :
    s.Effect i (s.runAddStep cbv line) := by
  unfold State.runAddStep
  split
  · split
    · exact .append i _ _
    · exact .error i _
  · exact .nothing i

theorem State.runSoftWrap_effect (s : State) (i : Instr) : s.Effect i s.runSoftWrap := by
  unfold State.runSoftWrap
  split
  · exact .nothing i
  · split
    · exact .wrap i (by simpa using ‹¬ s.seq.enabled = true›) ‹_›
    · exact .error i _

theorem State.runCommand_effect (s : State) (i c : Instr) : s.Effect i (s.runCommand c) := by
  cases c
  case nop => exact .nothing i
  case detect => exact s.runDetect_effect i
  case enable => exact s.runEnable_effect i
  case disable => exact .disable i
  case addStep cbv line => exact s.runAddStep_effect i cbv line
  case setDebug d => exact .setDebug i d
  case softWrap => exact s.runSoftWrap_effect i
  all_goals exact .error i .badCommand

theorem State.runWord_effect (s : State) (i : Instr) (w : Half) : s.Effect i (s.runWord w) := by
  unfold State.runWord
  split
  · exact s.runCommand_effect i _
  · exact .error i .badCommand

/-- Every instruction is its own effect and the settle (R71, R72). -/
theorem exec_effect (i : Instr) (s t : State) (h : exec i s = .next t) : ∃ u, s.Effect i u ∧ t = u.settle := by
  cases i <;> cases h
  case wrCompareLo d => exact ⟨_, .compareLo d, rfl⟩
  case wrMode d => exact ⟨_, .mode d, rfl⟩
  case wrIrqStatus d =>
    refine ⟨_, ?_, rfl⟩
    split
    · exact s.acknowledge_effect _
    · exact .nothing _
  case wrIrqEn d => exact ⟨_, .irqEn _ _, rfl⟩
  case wrCmdLo d => exact ⟨_, .stage _ d, rfl⟩
  case wrCmdHi d => exact ⟨_, s.runWord_effect _ _, rfl⟩
  case wrIgnored => exact ⟨_, .nothing _, rfl⟩
  case nop => exact ⟨_, s.runCommand_effect _ .nop, rfl⟩
  case detect => exact ⟨_, s.runCommand_effect _ .detect, rfl⟩
  case enable => exact ⟨_, s.runCommand_effect _ .enable, rfl⟩
  case disable => exact ⟨_, s.runCommand_effect _ .disable, rfl⟩
  case addStep cbv line => exact ⟨_, s.runCommand_effect _ (.addStep cbv line), rfl⟩
  case setDebug d => exact ⟨_, s.runCommand_effect _ (.setDebug d), rfl⟩
  case softWrap => exact ⟨_, s.runCommand_effect _ .softWrap, rfl⟩
  all_goals exact ⟨_, .read _ _ _, rfl⟩

/-! ### The machine's moves -/

/-- A host in interrupt context is masked (R151, R154). -/
def State.Masked (s : State) : Prop := s.host.context = .interrupt → s.host.hostI = true

/-- A change of the host and the turns alone, which leaves no interrupt code unmasked. -/
structure State.SameButHost (s t : State) : Prop where
  block : s.SameBlock t
  trace : t.trace = s.trace
  masked : s.Masked → t.Masked

theorem State.sameButHost_refl (s : State) : s.SameButHost s :=
  ⟨s.hostFrame_refl.block, rfl, id⟩

theorem State.HostFrame.sameButHost {s t : State} (h : s.HostFrame t) : s.SameButHost t :=
  ⟨h.block, h.trace, fun hm hc => h.hostI.trans (hm (h.context ▸ hc))⟩

theorem State.SameButHost.trans {s t u : State} (h : s.SameButHost t) (k : t.SameButHost u) : s.SameButHost u where
  block :=
    { params := k.block.params.trans h.block.params
      scu := k.block.scu.trans h.block.scu
      seq := k.block.seq.trans h.block.seq
      err := k.block.err.trans h.block.err
      det := k.block.det.trans h.block.det
      metrics := k.block.metrics.trans h.block.metrics
      clock := k.block.clock.trans h.block.clock
      hold := k.block.hold.trans h.block.hold
      cmdLo := k.block.cmdLo.trans h.block.cmdLo }
  trace := k.trace.trans h.trace
  masked := k.masked ∘ h.masked

/-- What one step of the machine does apart from the host's own code (R11). -/
inductive State.Moves (s : State) : State → Prop
  | nothing : s.Moves s
  | beam : s.Moves s.beamStep
  | exec (i : Instr) (t : State) (h : exec i s = .next t) : s.Moves t
  | callback (k : StepIndex) : s.Moves (s.emit (.cbRun k))

/-- The host's own steps unmask only in mainline (R153, R154). -/
theorem State.runLocal_masked (s t : State) (op : HostOp) (h : s.runLocal op = .next t) (hm : s.Masked) : t.Masked := by
  cases op <;> simp only [State.runLocal] at h
  case mask => cases h; exact fun _ => rfl
  case unmask =>
    unfold State.unmask at h
    split at h <;> cases h
    rename_i hc
    exact fun hi => absurd (hc.symm.trans hi) nofun
  case isMasked => cases h; exact (s.hostFrame_mapThread _).sameButHost.masked hm
  case rti =>
    obtain ⟨_, rfl⟩ := s.returnFromInterrupt_next t h
    exact nofun
  case setRomDisabled v => cases h; exact hm
  case runCallback =>
    unfold State.callCallback at h
    split at h <;> cases h
    exact (State.hostFrame_mapThread _ _).sameButHost.masked hm
  all_goals cases h; exact hm

/-- The host's own steps move the block at most by CbRun (R152, R154). -/
theorem State.runLocal_moves (s t : State) (op : HostOp) (h : s.runLocal op = .next t) :
    ∃ v, s.Moves v ∧ v.SameButHost t := by
  have hm := s.runLocal_masked t op h
  obtain ⟨hb, ht | ⟨k, ht⟩, -, -⟩ := s.runLocal_block t op h
  · exact ⟨s, .nothing, hb, ht, hm⟩
  · exact ⟨_, .callback k, { hb with }, ht, hm⟩

/-- A host turn moves the block once at most. -/
theorem State.hostTurn_moves (s t : State) (h : s.hostTurn = .next t) :
    ∃ u v, s.SameButHost u ∧ u.Moves v ∧ v.SameButHost t := by
  obtain ⟨_, rfl⟩ | ⟨op, _, _, ho⟩ := s.hostTurn_cases t h
  · exact ⟨_, _, State.sameButHost_refl _, .nothing, State.sameButHost_refl _⟩
  · have hu : s.SameButHost s.gotoMain.dropOp :=
      s.gotoMain_frame.sameButHost.trans (State.hostFrame_mapThread _ _).sameButHost
    obtain ⟨_, v, _, _, he, rfl⟩ | ⟨_, hl⟩ := State.runHostOp_cases _ t op ho
    · exact ⟨_, v, hu, .exec _ v he, (op.after_frame v).sameButHost⟩
    · obtain ⟨v, hv, hvt⟩ := State.runLocal_moves _ t op hl
      exact ⟨_, v, hu, hv, hvt⟩

theorem State.sameButHost_withTurns (s : State) (ts : List Turn) : s.SameButHost { s with turns := ts } :=
  ⟨by constructor <;> rfl, rfl, id⟩

theorem State.takeInterrupt_sameButHost (s t : State) (h : s.takeInterrupt = .next t) : s.SameButHost t := by
  obtain ⟨_, _, hf⟩ | ⟨_, hf⟩ := s.takeInterrupt_cases <;> rw [hf] at h <;> cases h
  exact ⟨by constructor <;> rfl, rfl, fun _ _ => rfl⟩

/-- A step is one move of the block, before and after which only the host and the turns change (R11). -/
theorem step_moves (s t : State) (h : step s = .next t) :
    ∃ u v, s.SameButHost u ∧ u.Moves v ∧ v.SameButHost t := by
  obtain ⟨_, ⟨_, rfl⟩ | ⟨ts, u, rfl, ⟨_, rfl⟩ | ⟨_, hh⟩ | ⟨_, _, hi⟩ | ⟨_, _, rfl⟩⟩⟩ := step_cases s t h
  · exact ⟨s, _, s.sameButHost_refl, .beam, State.sameButHost_refl _⟩
  · exact ⟨_, _, s.sameButHost_withTurns ts, .beam, State.sameButHost_refl _⟩
  · obtain ⟨u, v, hu, hv⟩ := State.hostTurn_moves _ t hh
    exact ⟨u, v, (s.sameButHost_withTurns ts).trans hu, hv⟩
  · exact ⟨_, _, s.sameButHost_withTurns ts, .nothing, State.takeInterrupt_sameButHost _ t hi⟩
  · exact ⟨_, _, s.sameButHost_withTurns ts, .nothing, State.sameButHost_refl _⟩

/-! ### Fields the beam's test and sample leave alone -/

@[simp] theorem State.compareMatch_seq (s : State) : s.compareMatch.seq = s.seq := by
  unfold State.compareMatch; split <;> rfl
@[simp] theorem State.compareMatch_det (s : State) : s.compareMatch.det = s.det := by
  unfold State.compareMatch; split <;> rfl
@[simp] theorem State.compareMatch_metrics (s : State) : s.compareMatch.metrics = s.metrics := by
  unfold State.compareMatch; split <;> rfl
@[simp] theorem State.compareMatch_clock (s : State) : s.compareMatch.clock = s.clock := by
  unfold State.compareMatch; split <;> rfl
@[simp] theorem State.compareMatch_params (s : State) : s.compareMatch.params = s.params := by
  unfold State.compareMatch; split <;> rfl
@[simp] theorem State.compareMatch_compare (s : State) : s.compareMatch.scu.compare = s.scu.compare := by
  unfold State.compareMatch; split <;> rfl

@[simp] theorem State.detSample_seq (s : State) : s.detSample.seq = s.seq := by
  unfold State.detSample; split <;> (try split) <;> rfl
@[simp] theorem State.detSample_scu (s : State) : s.detSample.scu = s.scu := by
  unfold State.detSample; split <;> (try split) <;> rfl
@[simp] theorem State.detSample_clock (s : State) : s.detSample.clock = s.clock := by
  unfold State.detSample; split <;> (try split) <;> rfl
@[simp] theorem State.detSample_params (s : State) : s.detSample.params = s.params := by
  unfold State.detSample; split <;> (try split) <;> rfl
@[simp] theorem State.detSample_trace (s : State) : s.detSample.trace = s.trace := by
  unfold State.detSample; split <;> (try split) <;> rfl

/-- Without a measurement there is no sample (R114). -/
theorem State.detSample_idle (s : State) (h : s.det.detecting = false) : s.detSample = s :=
  if_neg (by simp [h])

end Sys2Proof.Machine
end

section
/-! PROOFS. The invariant of R40, items 1 to 7, with R125's quiet state: every step keeps it. -/

namespace Sys2Proof.Machine

/-! ### The invariant in the middle of a step -/

/-- `s` with the raster interrupt switched off, so that no fire can be pending. -/
def State.withoutIrq (s : State) : State := { s with scu := { s.scu with irqEnRst := false } }

theorem State.quiet_withoutIrq (s : State) : s.withoutIrq.Quiet := by
  simp [State.Quiet, State.firePending, State.withoutIrq]

/-- The invariant but for R125's pending fire, as it stands before the settle: no other item reads IRQ_EN_RST. -/
abbrev State.Settling (s : State) : Prop := s.withoutIrq.Inv

theorem State.Inv.settling {s : State} (h : s.Inv) : s.Settling :=
  { h with quiet := s.quiet_withoutIrq }

theorem State.Settling.inv {s : State} (h : s.Settling) (hq : s.Quiet) : s.Inv :=
  { h with quiet := hq }

/-- The invariant reads the block and the mask only. -/
theorem State.Inv.of_sameButHost {s t : State} (h : s.Inv) (k : s.SameButHost t) : t.Inv := by
  obtain ⟨⟨hparams, hscu, hseq, -, hdet, hmetrics, hclock, -, -⟩, -, hmask⟩ := k
  cases t
  cases hparams; cases hscu; cases hseq; cases hdet; cases hmetrics; cases hclock
  exact { h with interrupt_masked := hmask h.interrupt_masked }

/-- While no measurement has completed nothing runs (R40 items 3, 4). -/
theorem State.Inv.disabled_of_unmeasured {s : State} (h : s.Inv) (hv : s.metrics.valid = false) :
    s.seq.enabled = false := by
  by_contra he
  exact absurd (hv.symm.trans (h.enabled_valid (by simpa using he))) nofun

/-- With valid metrics no measurement runs (R40 item 3). -/
theorem State.Inv.measured_not_detecting {s : State} (h : s.Inv) (hv : s.metrics.valid = true) :
    s.det.detecting = false := by
  by_contra hd
  exact absurd (hv.symm.trans (h.detecting_alone (by simpa using hd)).1) nofun

/-! ### WRAP keeps the clock's bounds -/

/-- R40 item 5. -/
structure FrameClock.InBounds (c : FrameClock) (m : Metrics) : Prop where
  millis_le : c.millis.toNat ≤ 999
  drift_le : c.drift.toNat ≤ 999
  regionA_drift : m.regionA = true → c.drift = 0

theorem FrameClock.wrapped_millis_toNat (c : FrameClock) (m : Metrics) :
    (c.wrapped m).millis.toNat
      = (if 1000 ≤ c.millisSum m then c.millisSum m - 1000 else c.millisSum m) % 2 ^ 16 := rfl

theorem FrameClock.wrapped_drift (c : FrameClock) (m : Metrics) :
    (c.wrapped m).drift = BitVec.ofNat 16 (c.driftSum m) := rfl

/-- R139: a correction keeps the drift below DRIFT_LIMIT, a roll the milliseconds below MS_PER_S. -/
theorem FrameClock.wrapped_inBounds {c : FrameClock} {m : Metrics} (hm : m.Known) (h : c.InBounds m) :
    (c.wrapped m).InBounds m := by
  obtain ⟨hms, hdr, hA⟩ := h
  obtain ⟨hr, -, -, hf⟩ | ⟨hr, -, -, hf⟩ := hm
  · obtain ⟨hsum, hdrift⟩ := c.sums_regionA m hr
    have h0 : (c.wrapped m).drift = 0 := by
      rw [c.wrapped_drift, hdrift, hA hr]; rfl
    have hmspf : m.mspf.toNat = 20 := by rw [hf]; rfl
    refine ⟨?_, by simp [h0], fun _ => h0⟩
    rw [c.wrapped_millis_toNat]
    split <;> omega
  · have hsums := c.sums_regionB m hr
    have hmspf : m.mspf.toNat = 16 := by rw [hf]; rfl
    refine ⟨?_, ?_, fun h => absurd (hr.symm.trans h) nofun⟩
    · rw [c.wrapped_millis_toNat]
      split <;> omega
    · rw [c.wrapped_drift, BitVec.toNat_ofNat]
      omega

theorem State.Settling.clock_inBounds {s : State} (h : s.Settling) : s.clock.InBounds s.metrics :=
  ⟨h.millis_le, h.drift_le, h.regionA_drift⟩

/-! ### SEQ_FIRE and the settle -/

theorem State.nextIndex_toNat (s : State) (h : s.seq.stepCount.toNat ≤ 8) (hn : 2 ≤ s.seq.stepCount.toNat) :
    s.nextIndex.toNat = (s.seq.curIndex.toNat + 1) % s.seq.stepCount.toNat := by
  have := Nat.mod_lt (s.seq.curIndex.toNat + 1) (by omega : 0 < s.seq.stepCount.toNat)
  rw [State.nextIndex, BitVec.toNat_ofNat]
  omega

theorem State.rearmed_arming (s : State) :
    s.rearmed.seq.curIndex = s.nextIndex ∧ s.rearmed.scu.compare = (s.stepAt s.nextIndex).line := by
  unfold State.rearmed
  dsimp only
  split <;> exact ⟨rfl, rfl⟩

/-- What a fire does to CUR_INDEX and COMPARE: FIRE_SINGLE leaves both, FIRE_MULTI moves both to the next step
(R127, R128). -/
theorem State.seqFire_arming (s : State) :
    (s.seq.stepCount.toNat < 2 ∧ s.seqFire.seq.curIndex = s.seq.curIndex ∧ s.seqFire.scu.compare = s.scu.compare)
      ∨ (2 ≤ s.seq.stepCount.toNat ∧ s.seqFire.seq.curIndex = s.nextIndex
        ∧ s.seqFire.scu.compare = (s.stepAt s.nextIndex).line) := by
  unfold State.seqFire
  split
  · refine .inl ⟨‹_›, ?_⟩
    obtain ⟨_, _, h⟩ | ⟨_, _, h⟩ | ⟨_, h⟩ := s.fireSingle_cases <;> rw [h] <;> exact ⟨rfl, rfl⟩
  · refine .inr ⟨by omega, ?_⟩
    obtain ⟨_, h⟩ | ⟨_, h⟩ := s.fireMulti_cases <;> rw [h] <;> exact s.rearmed_arming

theorem State.seqFire_curIndex_lt {s : State} (h : s.Settling) :
    s.seqFire.seq.curIndex.toNat < max s.seqFire.seq.stepCount.toNat 1 := by
  have hle := h.stepCount_le
  have hlt := h.curIndex_lt
  rw [s.seqFire_frame.stepCount]
  obtain ⟨_, hc, -⟩ | ⟨hn, hc, -⟩ := s.seqFire_arming
  · rwa [hc]
  · rw [hc, s.nextIndex_toNat hle hn]
    exact lt_max_of_lt_left (Nat.mod_lt _ (by omega))

/-- A pending fire makes the invariant whole: it acknowledges itself or leaves a request outstanding (R125). -/
theorem State.seqFire_inv {s : State} (h : s.Settling) (hp : s.firePending = true) : s.seqFire.Inv := by
  obtain ⟨he, -, hrst, hidle, hdet⟩ := s.firePending_iff.mp hp
  have hv : s.metrics.valid = true := h.enabled_valid he
  have hf := s.seqFire_frame
  have hclock : s.seqFire.clock.InBounds s.metrics := by
    obtain hc | hc := hf.clock <;> rw [hc]
    · exact h.clock_inBounds
    · exact FrameClock.wrapped_inBounds (h.metrics_known hv) h.clock_inBounds
  constructor
  case curIndex_lt => exact State.seqFire_curIndex_lt h
  case cbWait_served =>
    intro hw
    obtain ⟨-, hr⟩ | ⟨hs, -⟩ := s.seqFire_outcome
    · exact ⟨hf.enabled.trans he, hr.trans hrst⟩
    · exact absurd (hw.symm.trans (hs.trans hidle)) nofun
  case quiet =>
    obtain ⟨hs, -⟩ | ⟨-, hr⟩ := s.seqFire_outcome
    · simp [State.Quiet, State.firePending, hs]
    · simp [State.Quiet, State.firePending, hr]
  case millis_le => exact hclock.millis_le
  case drift_le => exact hclock.drift_le
  case regionA_drift => rw [hf.metrics]; exact hclock.regionA_drift
  case unmeasured => rw [hf.metrics, hv]; exact nofun
  case params_valid => rw [hf.params]; exact h.params_valid
  case stepCount_le => rw [hf.stepCount]; exact h.stepCount_le
  case detecting_alone => rw [hf.det, hdet]; exact nofun
  case enabled_valid => rw [hf.metrics]; exact fun _ => hv
  case metrics_known => rw [hf.metrics]; exact h.metrics_known
  case raster_lt => rw [hf.raster, hf.params]; exact h.raster_lt
  case interrupt_masked => rw [hf.host]; exact h.interrupt_masked

/-- The settle makes the invariant whole (R125). -/
theorem State.settle_inv {s : State} (h : s.Settling) : s.settle.Inv := by
  obtain ⟨hp, hs⟩ | ⟨hq, hs⟩ := s.settle_cases <;> rw [hs]
  · exact State.seqFire_inv h hp
  · exact h.inv hq

/-! ### The effects -/

theorem State.wrap_settling {s : State} (h : s.Inv) (hv : s.metrics.valid = true) : s.wrap.Settling :=
  have hc := FrameClock.wrapped_inBounds (h.metrics_known hv) h.settling.clock_inBounds
  { h.settling with
    millis_le := hc.millis_le, drift_le := hc.drift_le, regionA_drift := hc.regionA_drift
    unmeasured := fun hn => absurd (hv.symm.trans hn) nofun }

theorem State.appendStep_stepCount (s : State) (e : StepEntry) (hn : s.seq.stepCount.toNat < 8) :
    (s.appendStep e hn).seq.stepCount.toNat = s.seq.stepCount.toNat + 1 := by
  show (s.seq.stepCount + 1).toNat = _
  rw [BitVec.toNat_add]
  exact Nat.mod_eq_of_lt (by simp; omega)

theorem State.appendStep_settling {s : State} (h : s.Inv) (e : StepEntry) (hn : s.seq.stepCount.toNat < 8) :
    (s.appendStep e hn).Settling :=
  have hc := s.appendStep_stepCount e hn
  { h.settling with
    stepCount_le := hc.trans_le hn
    curIndex_lt := by
      have hlt := h.curIndex_lt
      show s.seq.curIndex.toNat < max (s.appendStep e hn).seq.stepCount.toNat 1
      omega }

/-- Every instruction's own effect keeps the invariant but for R125's pending fire. -/
theorem State.Effect.settling {s u : State} {i : Instr} (h : s.Inv) (he : s.Effect i u) : u.Settling := by
  have hs := h.settling
  cases he with
  | nothing => exact hs
  | read i hold d =>
    have hr : ({ s with hold := hold } : State).Inv := { h with }
    exact (hr.of_sameButHost (State.hostFrame_mapThread _ _).sameButHost).settling
  | stage i d => exact { hs with }
  | compareLo d => exact { hs with }
  | mode d => exact { hs with }
  | irqEn i b => exact { hs with }
  | clearRst i hidle =>
    exact { hs with
      cbWait_served := fun hw => absurd (hidle.symm.trans hw) nofun
      quiet := State.quiet_withoutIrq _ }
  | endRequest i hw => exact { hs with cbWait_served := nofun, quiet := State.quiet_withoutIrq _ }
  | detect i hv hd =>
    have hoff := h.disabled_of_unmeasured hv
    exact { hs with detecting_alone := fun _ => ⟨hv, hoff⟩, quiet := State.quiet_withoutIrq _ }
  | enable i hv =>
    have hd := h.measured_not_detecting hv
    exact { hs with
      curIndex_lt := lt_max_of_lt_right Nat.zero_lt_one
      cbWait_served := nofun
      detecting_alone := fun hd' => absurd (hd.symm.trans hd') nofun
      enabled_valid := fun _ => hv
      quiet := State.quiet_withoutIrq _ }
  | disable i =>
    exact { hs with
      cbWait_served := nofun
      detecting_alone := fun hd => ⟨(h.detecting_alone hd).1, rfl⟩
      enabled_valid := nofun
      quiet := State.quiet_withoutIrq _ }
  | append i e hn => exact State.appendStep_settling h e hn
  | setDebug i d => exact { hs with }
  | wrap i hoff hv => exact State.wrap_settling h hv
  | error i e => exact { hs with }

theorem exec_inv (i : Instr) {s t : State} (h : s.Inv) (he : exec i s = .next t) : t.Inv := by
  obtain ⟨u, hu, rfl⟩ := exec_effect i s t he
  exact State.settle_inv (hu.settling h)

/-! ### The beam step -/

theorem State.advanceRaster_inv {s : State} (h : s.Inv) : s.advanceRaster.Inv := by
  obtain ⟨h2, h512⟩ := h.params_valid.2.1
  have hlt := Nat.mod_lt (s.scu.raster.toNat + 1) (by omega : 0 < s.params.hwLines)
  refine { h with raster_lt := ?_ }
  rw [State.advanceRaster_scu, BitVec.toNat_ofNat]
  exact (Nat.mod_le _ _).trans_lt hlt

theorem State.compareMatch_settling {s : State} (h : s.Inv) : s.compareMatch.Settling := by
  unfold State.compareMatch
  split
  · exact { h.settling with
      cbWait_served := fun hw => ⟨(h.cbWait_served hw).1, rfl⟩
      quiet := State.quiet_withoutIrq _ }
  · exact h.settling

theorem classified_known (m : Half) : (classified m).valid = true ∧ (classified m).Known := by
  unfold classified
  split
  · exact ⟨rfl, .inl ⟨rfl, rfl, rfl, rfl⟩⟩
  · exact ⟨rfl, .inr ⟨rfl, rfl, rfl, rfl⟩⟩

/-- The end of a measurement finds the clock still at zero, so that it is in the bounds of either region. -/
theorem State.detSample_settling {s : State} (h : s.Settling) : s.detSample.Settling := by
  unfold State.detSample
  split
  · rename_i hd
    obtain ⟨hv, hoff⟩ := h.detecting_alone hd
    split
    · have hk := classified_known (measuredCount s.det.prev)
      have hz : s.clock = FrameClock.zero := (h.unmeasured hv).2
      exact { h with
        detecting_alone := nofun
        enabled_valid := fun _ => hk.1
        regionA_drift := fun _ => by rw [hz]; rfl
        metrics_known := fun _ => hk.2
        unmeasured := fun hn => absurd (hk.1.symm.trans hn) nofun
        quiet := State.quiet_withoutIrq _ }
    · exact { h with detecting_alone := fun _ => ⟨hv, hoff⟩ }
  · exact h

theorem State.beamStep_inv {s : State} (h : s.Inv) : s.beamStep.Inv :=
  State.settle_inv (State.detSample_settling (State.compareMatch_settling (State.advanceRaster_inv h)))

/-! ### Every step -/

theorem State.Moves.inv {s t : State} (h : s.Inv) (hm : s.Moves t) : t.Inv := by
  cases hm with
  | nothing => exact h
  | beam => exact State.beamStep_inv h
  | exec i t he => exact exec_inv i h he
  | callback k => exact { h with }

/-- Settles O10: the one move of a step keeps the invariant, and the host's own code does not touch what it reads. -/
theorem everyStepKeepsTheInvariant : Obligations.EveryStepKeepsTheInvariant := by
  intro s t h hstep
  obtain ⟨u, v, hsu, huv, hvt⟩ := step_moves s t hstep
  exact (huv.inv (h.of_sameButHost hsu)).of_sameButHost hvt

end Sys2Proof.Machine
end

section
/-! PROOFS. R40 item 8: the sequencer's arming, which only a host write of COMPARE_LO or MODE can break (R76, R78). -/

namespace Sys2Proof.Machine

/-- The arming reads DEFAULT_LINE, the sequencer and COMPARE. -/
theorem State.Armed.of_eq {s t : State} (h : s.Armed) (hp : t.params = s.params) (hq : t.seq = s.seq)
    (hc : t.scu.compare = s.scu.compare) : t.Armed := by
  unfold State.Armed State.stepAt at *
  rwa [hp, hq, hc]

/-- A fire keeps the arming: FIRE_SINGLE moves neither side of it, FIRE_MULTI both (R127, R128). -/
theorem State.seqFire_armed {s : State} (h : s.Armed) : s.seqFire.Armed := by
  have hf := s.seqFire_frame
  intro he
  rw [hf.params, hf.stepCount, s.stepAt_congr s.seqFire hf.steps]
  obtain ⟨_, hcur, hcmp⟩ | ⟨hn, hcur, hcmp⟩ := s.seqFire_arming <;> rw [hcur, hcmp]
  · exact h (hf.enabled.symm.trans he)
  · rw [if_neg]
    rintro h0
    simp [h0] at hn

theorem State.settle_armed {s : State} (h : s.Armed) : s.settle.Armed := by
  obtain ⟨_, hs⟩ | ⟨_, hs⟩ := s.settle_cases <;> rw [hs]
  · exact State.seqFire_armed h
  · exact h

/-! ### The table after an ADD_STEP -/

theorem State.appendStep_stepAt_new (s : State) (e : StepEntry) (hn : s.seq.stepCount.toNat < 8) (k : StepIndex)
    (hk : k.toNat = s.seq.stepCount.toNat) : (s.appendStep e hn).stepAt k = e := by
  simp [State.stepAt, State.appendStep, hk]

theorem State.appendStep_stepAt_old (s : State) (e : StepEntry) (hn : s.seq.stepCount.toNat < 8) (k : StepIndex)
    (hk : k.toNat < s.seq.stepCount.toNat) : (s.appendStep e hn).stepAt k = s.stepAt k :=
  Vector.getElem_set_ne hn _ (by omega)

/-- The first step of an enabled sequencer is armed at once; a later one leaves the current step as it is (R133). -/
theorem State.appendStep_armed {s : State} (hi : s.Inv) (h : s.Armed) (e : StepEntry)
    (hn : s.seq.stepCount.toNat < 8) : (s.appendStep e hn).Armed := by
  intro he
  have hne : (s.appendStep e hn).seq.stepCount ≠ 0 := by
    intro h0
    have := s.appendStep_stepCount e hn
    simp [h0] at this
  have hlt := hi.curIndex_lt
  rw [if_neg hne]
  show (if s.seq.stepCount = 0 ∧ s.seq.enabled = true then e.line else s.scu.compare)
    = ((s.appendStep e hn).stepAt s.seq.curIndex).line
  by_cases h0 : s.seq.stepCount = 0
  · rw [if_pos ⟨h0, he⟩, s.appendStep_stepAt_new]
    simp [h0] at hlt ⊢
    omega
  · have hpos : s.seq.stepCount.toNat ≠ 0 := fun h => h0 (BitVec.eq_of_toNat_eq h)
    rw [if_neg (fun h => h0 h.1), s.appendStep_stepAt_old e hn _ (by omega), h he, if_neg h0]

/-! ### Every step but the two compare writes -/

theorem State.startScheduler_armed (s : State) : s.startScheduler.Armed := fun _ => rfl

theorem State.Effect.armed {s u : State} {i : Instr} (hi : s.Inv) (h : s.Armed)
    (hc : ∀ d, i ≠ .wrCompareLo d ∧ i ≠ .wrMode d) (he : s.Effect i u) : u.Armed := by
  cases he with
  | compareLo d => exact absurd rfl (hc d).1
  | mode d => exact absurd rfl (hc d).2
  | read i hold d => exact h.of_eq (by simp) (by simp) (by simp)
  | enable i hv => exact s.startScheduler_armed
  | disable i => exact nofun
  | append i e hn => exact State.appendStep_armed hi h e hn
  | nothing | stage | irqEn | clearRst | endRequest | detect | setDebug | wrap | error => exact h

/-- The beam, the compare test and the sample leave the sequencer and COMPARE alone (R123). -/
theorem State.beamStep_armed {s : State} (h : s.Armed) : s.beamStep.Armed :=
  State.settle_armed (h.of_eq (by simp) (by simp) (by simp))

/-- Settles O11: every effect but a compare write, every beam step and every fire keep the arming, and ENABLE arms. -/
theorem onlyCompareWritesBreakTheArming : Obligations.OnlyCompareWritesBreakTheArming := by
  refine ⟨fun s _ h => State.beamStep_armed h, fun s t i hi h hc he => ?_, fun s t hv he => ?_⟩
  · obtain ⟨u, hu, rfl⟩ := exec_effect i s t he
    exact State.settle_armed (hu.armed hi h hc)
  · have ht : t = s.startScheduler.settle := by
      rw [← s.runEnable_valid hv]
      cases he
      rfl
    rw [ht]
    exact ⟨s.startScheduler.settle_frame.enabled, State.settle_armed s.startScheduler_armed⟩

end Sys2Proof.Machine
end

section
/-! PROOFS. What a step can do to the frame clock, the step table and the trace (R26, R27, R32, R39), and that a
transaction leaves the beam and the host alone (R17, R71). -/

namespace Sys2Proof.Machine

/-! ### The frame clock -/

/-- The clock stands, or makes one WRAP with valid metrics (R139, R142). -/
def State.ClockStep (s t : State) : Prop :=
  t.clock = s.clock ∨ (s.metrics.valid = true ∧ t.clock = s.clock.wrapped s.metrics)

/-- A settle that wraps fires, so the scheduler is enabled and the metrics are valid. -/
theorem State.settle_clock {s : State} (h : s.Settling) :
    s.settle.clock = s.clock
      ∨ (s.seq.enabled = true ∧ s.metrics.valid = true ∧ s.settle.clock = s.clock.wrapped s.metrics) := by
  obtain ⟨hp, hs⟩ | ⟨_, hs⟩ := s.settle_cases <;> rw [hs]
  · have he := (s.firePending_iff.mp hp).1
    obtain hc | hc := s.seqFire_frame.clock
    · exact .inl hc
    · exact .inr ⟨he, h.enabled_valid he, hc⟩
  · exact .inl rfl

/-- Only SOFT_WRAP's own effect touches the clock, while the scheduler is disabled (R143). -/
theorem State.Effect.clock {s u : State} {i : Instr} (he : s.Effect i u) :
    (u.clock = s.clock ∧ u.metrics = s.metrics)
      ∨ (u.seq.enabled = false ∧ s.metrics.valid = true ∧ u.clock = s.clock.wrapped s.metrics) := by
  cases he with
  | read i hold d => exact .inl ⟨by simp, by simp⟩
  | wrap i hoff hv => exact .inr ⟨hoff, hv, rfl⟩
  | nothing | stage | compareLo | mode | irqEn | clearRst | endRequest | detect | enable | disable | append | setDebug
  | error => exact .inl ⟨rfl, rfl⟩

theorem exec_clock (i : Instr) {s t : State} (h : s.Inv) (he : exec i s = .next t) : s.ClockStep t := by
  obtain ⟨u, hu, rfl⟩ := exec_effect i s t he
  obtain hs | ⟨hon, hv, hs⟩ := State.settle_clock (hu.settling h)
  · obtain ⟨hc, -⟩ | ⟨-, hv, hc⟩ := hu.clock
    · exact .inl (hs.trans hc)
    · exact .inr ⟨hv, hs.trans hc⟩
  · obtain ⟨hc, hm⟩ | ⟨hoff, -⟩ := hu.clock
    · exact .inr ⟨hm ▸ hv, by rw [hs, hc, hm]⟩
    · exact absurd (hoff.symm.trans hon) nofun

/-- A measurement that ends in this step finds the scheduler disabled, so its new metrics are in no WRAP of the step. -/
theorem State.beamStep_clock {s : State} (h : s.Inv) : s.ClockStep s.beamStep := by
  obtain hs | ⟨hon, hv, hs⟩ :=
    State.settle_clock (State.detSample_settling (State.compareMatch_settling (State.advanceRaster_inv h)))
  · exact .inl (hs.trans (by simp))
  · have hd := h.measured_not_detecting (h.enabled_valid (by simpa using hon))
    rw [State.detSample_idle _ (by simpa using hd)] at hv hs
    refine .inr ⟨by simpa using hv, ?_⟩
    rw [State.beamStep, State.detSample_idle _ (by simpa using hd), hs]
    simp

/-- Settles O35, by the one move of the step. -/
theorem onlyWrapChangesTheFrameClock : Obligations.OnlyWrapChangesTheFrameClock := by
  intro s t h hstep
  obtain ⟨u, v, hsu, huv, hvt⟩ := step_moves s t hstep
  have hu := h.of_sameButHost hsu
  have hc : u.ClockStep v := by
    cases huv with
    | nothing | callback => exact .inl rfl
    | beam => exact State.beamStep_clock hu
    | exec i v he => exact exec_clock i hu he
  rwa [State.ClockStep, ← hvt.block.clock, hsu.block.clock, hsu.block.metrics] at hc

/-! ### The step table -/

/-- STEP_COUNT stands or grows by one, and the live entries stand (R26, R27). -/
def State.TableStep (s t : State) : Prop :=
  (t.seq.stepCount = s.seq.stepCount ∨ t.seq.stepCount.toNat = s.seq.stepCount.toNat + 1)
    ∧ ∀ k : StepIndex, k.toNat < s.seq.stepCount.toNat → t.stepAt k = s.stepAt k

theorem State.tableStep_of_eq {s t : State} (hn : t.seq.stepCount = s.seq.stepCount) (hs : t.seq.steps = s.seq.steps) :
    s.TableStep t :=
  ⟨.inl hn, fun k _ => s.stepAt_congr t hs k⟩

/-- Only an ADD_STEP below the cap touches the table (R133). -/
theorem State.Effect.tableStep {s u : State} {i : Instr} (he : s.Effect i u) : s.TableStep u := by
  cases he with
  | read i hold d => exact State.tableStep_of_eq (by simp) (by simp)
  | append i e hn => exact ⟨.inr (s.appendStep_stepCount e hn), s.appendStep_stepAt_old e hn⟩
  | nothing | stage | compareLo | mode | irqEn | clearRst | endRequest | detect | enable | disable | setDebug | wrap
  | error => exact State.tableStep_of_eq rfl rfl

theorem State.TableStep.settle {s u : State} (h : s.TableStep u) : s.TableStep u.settle := by
  have hf := u.settle_frame
  refine ⟨by rw [hf.stepCount]; exact h.1, fun k hk => ?_⟩
  rw [u.stepAt_congr _ hf.steps]
  exact h.2 k hk

theorem State.beamStep_tableStep (s : State) : s.TableStep s.beamStep :=
  State.TableStep.settle (State.tableStep_of_eq (by simp) (by simp))

/-- Settles O48, by the one move of the step. -/
theorem stepTableOnlyGrows : Obligations.StepTableOnlyGrows := by
  intro s t _ hstep
  obtain ⟨u, v, hsu, huv, hvt⟩ := step_moves s t hstep
  have hc : u.TableStep v := by
    cases huv with
    | nothing | callback => exact State.tableStep_of_eq rfl rfl
    | beam => exact u.beamStep_tableStep
    | exec i v he =>
      obtain ⟨w, hw, rfl⟩ := exec_effect i u v he
      exact hw.tableStep.settle
  unfold State.TableStep State.stepAt at hc
  rwa [← hvt.block.seq, hsu.block.seq] at hc

/-! ### The trace -/

/-- The trace of `t` is that of `s` with events appended (R39). -/
def State.TraceGrows (s t : State) : Prop := ∃ es, t.trace = s.trace ++ es

theorem State.traceGrows_of_eq {s t : State} (h : t.trace = s.trace) : s.TraceGrows t :=
  ⟨[], by simp [h]⟩

theorem State.emit_traceGrows (s : State) (e : Event) : s.TraceGrows (s.emit e) := ⟨[e], rfl⟩

theorem State.TraceGrows.snoc {s t u : State} {e : Event} (h : s.TraceGrows t) (hu : u.trace = t.trace ++ [e]) :
    s.TraceGrows u := by
  obtain ⟨es, ht⟩ := h
  exact ⟨es ++ [e], by rw [hu, ht, List.append_assoc]⟩

theorem State.TraceGrows.trans {s t u : State} (h : s.TraceGrows t) (k : t.TraceGrows u) : s.TraceGrows u := by
  obtain ⟨es, ht⟩ := h
  obtain ⟨fs, hu⟩ := k
  exact ⟨es ++ fs, by rw [hu, ht, List.append_assoc]⟩

theorem State.rearmed_traceGrows (s : State) : s.TraceGrows s.rearmed := by
  unfold State.rearmed
  dsimp only
  have he : s.TraceGrows (s.emit (.fire (some s.seq.curIndex))).rearm := ⟨[_], rfl⟩
  split
  · exact he.snoc rfl
  · exact he

theorem State.seqFire_traceGrows (s : State) : s.TraceGrows s.seqFire := by
  unfold State.seqFire
  split
  · have hw : ∀ k, s.TraceGrows (s.emit (.fire k)).wrap := fun k => (s.emit_traceGrows _).snoc rfl
    obtain ⟨_, _, h⟩ | ⟨_, _, h⟩ | ⟨_, h⟩ := s.fireSingle_cases <;> rw [h] <;> exact (hw _).snoc rfl
  · obtain ⟨_, h⟩ | ⟨_, h⟩ := s.fireMulti_cases <;> rw [h] <;> exact s.rearmed_traceGrows.snoc rfl

theorem State.settle_traceGrows (s : State) : s.TraceGrows s.settle := by
  obtain ⟨_, h⟩ | ⟨_, h⟩ := s.settle_cases <;> rw [h]
  · exact s.seqFire_traceGrows
  · exact State.traceGrows_of_eq rfl

theorem State.Effect.traceGrows {s u : State} {i : Instr} (he : s.Effect i u) : s.TraceGrows u := by
  cases he with
  | read i hold d => exact State.traceGrows_of_eq (by simp)
  | endRequest | wrap | error => exact ⟨[_], rfl⟩
  | enable i hv => exact (s.emit_traceGrows _).snoc rfl
  | nothing | stage | compareLo | mode | irqEn | clearRst | detect | disable | append | setDebug =>
    exact State.traceGrows_of_eq rfl

theorem State.compareMatch_traceGrows (s : State) : s.TraceGrows s.compareMatch := by
  unfold State.compareMatch
  split
  · exact ⟨[_], rfl⟩
  · exact State.traceGrows_of_eq rfl

theorem State.beamStep_traceGrows (s : State) : s.TraceGrows s.beamStep := by
  have hm : s.TraceGrows s.advanceRaster.compareMatch := s.advanceRaster.compareMatch_traceGrows
  exact (hm.trans (State.traceGrows_of_eq (State.detSample_trace _))).trans (State.settle_traceGrows _)

theorem State.Moves.traceGrows {s t : State} (h : s.Moves t) : s.TraceGrows t := by
  cases h with
  | nothing => exact State.traceGrows_of_eq rfl
  | beam => exact s.beamStep_traceGrows
  | exec i t he =>
    obtain ⟨u, hu, rfl⟩ := exec_effect i s t he
    exact hu.traceGrows.trans u.settle_traceGrows
  | callback k => exact s.emit_traceGrows _

/-- Settles O49, by the one move of the step. -/
theorem traceIsAppendOnly : Obligations.TraceIsAppendOnly := by
  intro s t hstep
  obtain ⟨u, v, hsu, huv, hvt⟩ := step_moves s t hstep
  exact ((State.traceGrows_of_eq hsu.trace).trans huv.traceGrows).trans (State.traceGrows_of_eq hvt.trace)

/-! ### The beam and the host -/

theorem State.thread_congr {s t : State} (h : t.host = s.host) : t.thread = s.thread := by
  unfold State.thread
  rw [h]

/-- Returning the byte the thread already has changes nothing. -/
theorem State.returnByte_self (s : State) : s.returnByte s.thread.data = s := s.mapThread_self _ rfl

theorem State.returnByte_host_congr (s t : State) (h : t.host = s.host) (d : Byte) :
    (t.returnByte d).host = (s.returnByte d).host := by
  unfold State.returnByte State.mapThread
  rw [h]
  split <;> rfl

/-- No own effect touches RASTER or the parameters, nor the host beyond the byte it returns (R17, R71). -/
theorem State.Effect.outside {s u : State} {i : Instr} (he : s.Effect i u) :
    u.scu.raster = s.scu.raster ∧ u.params = s.params ∧ ∃ d, u.host = (s.returnByte d).host := by
  have hself : s.host = (s.returnByte s.thread.data).host := by rw [s.returnByte_self]
  cases he with
  | read i hold d => exact ⟨by simp, by simp, d, s.returnByte_host_congr { s with hold := hold } rfl d⟩
  | nothing | stage | compareLo | mode | irqEn | clearRst | endRequest | detect | enable | disable | append | setDebug
  | wrap | error => exact ⟨rfl, rfl, _, hself⟩

/-- Settles O50: neither the own effect nor the settle touches them. -/
theorem transactionsLeaveTheBeamAndTheHostAlone : Obligations.TransactionsLeaveTheBeamAndTheHostAlone := by
  intro s t i he
  obtain ⟨hturns, hrec⟩ := exec_turns i s t he
  obtain ⟨u, hu, rfl⟩ := exec_effect i s t he
  obtain ⟨hraster, hparams, d, hhost⟩ := hu.outside
  have hf := u.settle_frame
  have hh : u.settle.host = (s.returnByte d).host := hf.host.trans hhost
  have hd : u.settle.thread.data = d := by simp [State.thread_congr hh]
  refine ⟨hf.raster.trans hraster, hf.params.trans hparams, hturns, hrec, by rw [hd]; exact hh, ?_⟩
  rw [hh]
  simp

end Sys2Proof.Machine
end

section
/-! PROOFS. DEBUG and MODE_OTHER are seen by nothing but the reads of STATUS and MODE (R19, R23, R134). Both statements come
from one simulation: two states that differ in these two fields alone move alike. -/

namespace Sys2Proof.Machine

/-! ### What neither reads nor writes the two fields -/

/-- `s` with other DEBUG and MODE_OTHER bits. -/
def State.withHidden (s : State) (b : Bool) (m : BitVec 7) : State := (s.withDebug b).withModeOther m

/-- `X` neither reads nor writes DEBUG and MODE_OTHER. -/
def IgnoresHidden (X : State → State) : Prop :=
  ∀ (s : State) (b : Bool) (m : BitVec 7), X (s.withHidden b m) = (X s).withHidden b m

theorem IgnoresHidden.comp {X Y : State → State} (hX : IgnoresHidden X) (hY : IgnoresHidden Y) :
    IgnoresHidden fun s => Y (X s) :=
  fun s b m => (congrArg Y (hX s b m)).trans (hY _ b m)

/-- A branch on a condition that does not read them. -/
theorem IgnoresHidden.ite {X Y : State → State} {c : State → Prop} [DecidablePred c]
    (hc : ∀ s b m, c (s.withHidden b m) = c s) (hX : IgnoresHidden X) (hY : IgnoresHidden Y) :
    IgnoresHidden fun s => if c s then X s else Y s := by
  intro s b m
  dsimp only
  by_cases h : c s
  · rw [if_pos h, if_pos ((hc s b m).mpr h), hX]
  · rw [if_neg h, if_neg ((hc s b m).mp.mt h), hY]

/-- What ignores the two fields leaves them as they are. -/
theorem IgnoresHidden.keeps {X : State → State} (hX : IgnoresHidden X) (s : State) :
    (X s).seq.debug = s.seq.debug ∧ (X s).scu.modeOther = s.scu.modeOther := by
  have h : X s = (X s).withHidden s.seq.debug s.scu.modeOther := hX s s.seq.debug s.scu.modeOther
  exact ⟨congrArg (·.seq.debug) h, congrArg (·.scu.modeOther) h⟩

theorem State.returnByte_withHidden (s : State) (b : Bool) (m : BitVec 7) (d : Byte) :
    (s.withHidden b m).returnByte d = (s.returnByte d).withHidden b m := by
  cases hc : s.host.context <;>
    simp [State.returnByte, State.mapThread, State.withHidden, State.withDebug, State.withModeOther, hc]

/-- A read of a byte that does not show them. -/
theorem IgnoresHidden.answer {X : State → State} {d : State → Byte} (hX : IgnoresHidden X)
    (hd : ∀ s b m, d (s.withHidden b m) = d s) : IgnoresHidden fun s => (X s).returnByte (d s) := by
  intro s b m
  dsimp only
  rw [hd, hX, State.returnByte_withHidden]

/-! ### The fire and the beam step -/

theorem ignoresHidden_fireSingle : IgnoresHidden State.fireSingle :=
  .ite (fun _ _ _ => rfl) (.ite (fun _ _ _ => rfl) (fun _ _ _ => rfl) (fun _ _ _ => rfl)) (fun _ _ _ => rfl)

theorem ignoresHidden_rearmed : IgnoresHidden State.rearmed :=
  .ite (fun _ _ _ => rfl) (fun _ _ _ => rfl) (fun _ _ _ => rfl)

theorem ignoresHidden_fireMulti : IgnoresHidden State.fireMulti :=
  .ite (X := fun s => s.rearmed.requestCallback s.seq.curIndex) (Y := fun s => s.rearmed.selfAck) (fun _ _ _ => rfl)
    (fun s b m => congrArg (State.requestCallback · s.seq.curIndex) (ignoresHidden_rearmed s b m))
    (ignoresHidden_rearmed.comp fun _ _ _ => rfl)

theorem ignoresHidden_settle : IgnoresHidden State.settle :=
  .ite (fun _ _ _ => rfl) (.ite (fun _ _ _ => rfl) ignoresHidden_fireSingle ignoresHidden_fireMulti)
    (fun _ _ _ => rfl)

theorem ignoresHidden_compareMatch : IgnoresHidden State.compareMatch :=
  .ite (fun _ _ _ => rfl) (fun _ _ _ => rfl) (fun _ _ _ => rfl)

theorem ignoresHidden_detSample : IgnoresHidden State.detSample :=
  .ite (fun _ _ _ => rfl) (.ite (fun _ _ _ => rfl) (fun _ _ _ => rfl) (fun _ _ _ => rfl)) (fun _ _ _ => rfl)

theorem ignoresHidden_beamStep : IgnoresHidden State.beamStep :=
  have hr : IgnoresHidden State.advanceRaster := fun _ _ _ => rfl
  ((hr.comp ignoresHidden_compareMatch).comp ignoresHidden_detSample).comp ignoresHidden_settle

/-! ### The own effects -/

theorem ignoresHidden_runDetect : IgnoresHidden State.runDetect :=
  .ite (fun _ _ _ => rfl) (fun _ _ _ => rfl) (fun _ _ _ => rfl)

theorem ignoresHidden_runEnable : IgnoresHidden State.runEnable :=
  .ite (fun _ _ _ => rfl) (fun _ _ _ => rfl) (fun _ _ _ => rfl)

theorem ignoresHidden_runSoftWrap : IgnoresHidden State.runSoftWrap :=
  .ite (fun _ _ _ => rfl) (fun _ _ _ => rfl) (.ite (fun _ _ _ => rfl) (fun _ _ _ => rfl) (fun _ _ _ => rfl))

theorem ignoresHidden_runAddStep (cbv : Bool) (line : Line) : IgnoresHidden (State.runAddStep · cbv line) := by
  intro s b m
  have hl : (s.withHidden b m).requestedLine line = s.requestedLine line := rfl
  by_cases hn : s.seq.stepCount.toNat < 8
  · have hn' : (s.withHidden b m).seq.stepCount.toNat < 8 := hn
    simp only [State.runAddStep, dif_pos hn, dif_pos hn', hl]
    cases s.requestedLine line <;> rfl
  · have hn' : ¬ (s.withHidden b m).seq.stepCount.toNat < 8 := hn
    simp only [State.runAddStep, dif_neg hn, dif_neg hn']

theorem ignoresHidden_acknowledge : IgnoresHidden State.acknowledge := by
  intro s b m
  have hs : (s.withHidden b m).seq.seqState = s.seq.seqState := rfl
  cases hc : s.seq.seqState <;> simp only [State.acknowledge, hs, hc] <;> rfl

/-! ### Two states that differ in the two fields alone -/

/-- `t` is `s` but for DEBUG, which differs only if `D`, and MODE_OTHER, which differs only if `M`. -/
def State.Agrees (D M : Prop) (s t : State) : Prop :=
  ∃ b m, t = s.withHidden b m ∧ (b = s.seq.debug ∨ D) ∧ (m = s.scu.modeOther ∨ M)

section
variable {D M : Prop} {s t : State} (h : s.Agrees D M t)
include h

theorem IgnoresHidden.agrees {X : State → State} (hX : IgnoresHidden X) : (X s).Agrees D M (X t) := by
  obtain ⟨b, m, rfl, hb, hm⟩ := h
  obtain ⟨hd, ho⟩ := hX.keeps s
  exact ⟨b, m, hX s b m, by rwa [hd], by rwa [ho]⟩

/-- SET_DEBUG overwrites DEBUG (R134). -/
theorem State.Agrees.runSetDebug (d : Bool) : (s.runSetDebug d).Agrees D M (t.runSetDebug d) := by
  obtain ⟨b, m, rfl, -, hm⟩ := h
  exact ⟨d, m, rfl, .inl rfl, hm⟩

/-- A command reads neither field (R130–R135). -/
theorem State.Agrees.runCommand (i : Instr) : (s.runCommand i).Agrees D M (t.runCommand i) := by
  cases i with
  | nop => exact h
  | detect => exact ignoresHidden_runDetect.agrees h
  | enable => exact ignoresHidden_runEnable.agrees h
  | addStep cbv line => exact (ignoresHidden_runAddStep cbv line).agrees h
  | softWrap => exact ignoresHidden_runSoftWrap.agrees h
  | setDebug d => exact h.runSetDebug d
  | disable => exact IgnoresHidden.agrees (X := State.runDisable) h fun _ _ _ => rfl
  | _ => exact IgnoresHidden.agrees (X := State.runReserved) h fun _ _ _ => rfl

theorem State.Agrees.runWord (w : Half) : (s.runWord w).Agrees D M (t.runWord w) := by
  unfold State.runWord
  split
  · exact h.runCommand _
  · exact IgnoresHidden.agrees (X := State.runReserved) h fun _ _ _ => rfl

/-- MODE overwrites MODE_OTHER (R78). -/
theorem State.Agrees.writeMode (d : Byte) :
    State.Agrees D M
      { s with scu := { s.scu with compare := withLineHigh s.scu.compare (modeLineHigh d), modeOther := modeRest d } }
      { t with
        scu := { t.scu with compare := withLineHigh t.scu.compare (modeLineHigh d), modeOther := modeRest d } } := by
  obtain ⟨b, m, rfl, hb, -⟩ := h
  exact ⟨b, modeRest d, rfl, hb, .inl rfl⟩

theorem State.Agrees.returnByte (d : Byte) : (s.returnByte d).Agrees D M (t.returnByte d) :=
  IgnoresHidden.agrees (X := (State.returnByte · d)) h fun u b m => u.returnByte_withHidden b m d

/-- STATUS reads the same unless DEBUG may differ (R44). -/
theorem State.Agrees.statusByte (hD : ¬ D) : t.statusByte = s.statusByte := by
  obtain ⟨b, m, rfl, hb, -⟩ := h
  rw [hb.resolve_right hD]
  rfl

/-- MODE reads the same unless MODE_OTHER may differ (R45). -/
theorem State.Agrees.modeByte (hM : ¬ M) : modeByte t.scu = modeByte s.scu := by
  obtain ⟨b, m, rfl, -, hm⟩ := h
  rw [hm.resolve_right hM]
  rfl

end

/-- Both go on from effects that agree, and their settles agree. -/
theorem State.Agrees.settles {D M : Prop} {s t u v : State} {i : Instr} (h : u.Agrees D M v)
    (hs : exec i s = .next u.settle) (ht : exec i t = .next v.settle) :
    ∃ u v, exec i s = .next u ∧ exec i t = .next v ∧ u.Agrees D M v :=
  ⟨_, _, hs, ht, ignoresHidden_settle.agrees h⟩

/-- An instruction whose own effect ignores both fields runs alike in both states. -/
theorem State.Agrees.exec {D M : Prop} {s t : State} {i : Instr} {X : State → State} (h : s.Agrees D M t)
    (hi : ∀ u, exec i u = .next (X u).settle) (hX : IgnoresHidden X) :
    ∃ u v, exec i s = .next u ∧ exec i t = .next v ∧ u.Agrees D M v :=
  (hX.agrees h).settles (hi s) (hi t)

/-- No transaction or command but the reads of STATUS and MODE tells the two states apart. -/
theorem exec_agrees {D M : Prop} {s t : State} (h : s.Agrees D M t) (i : Instr) (hS : i = .rdStatus → ¬ D)
    (hM : i = .rdMode → ¬ M) : ∃ u v, exec i s = .next u ∧ exec i t = .next v ∧ u.Agrees D M v := by
  cases i
  case rdStatus => exact (h.returnByte s.statusByte).settles rfl (h.statusByte (hS rfl) ▸ rfl)
  case rdMode => exact (h.returnByte (modeByte s.scu)).settles rfl (h.modeByte (hM rfl) ▸ rfl)
  case wrMode d => exact (h.writeMode d).settles rfl rfl
  case wrCmdHi d =>
    have hw : t.commandWord d = s.commandWord d := by obtain ⟨b, m, rfl, -, -⟩ := h; rfl
    exact (h.runWord (s.commandWord d)).settles rfl (hw ▸ rfl)
  case wrIrqStatus d =>
    have ha : IgnoresHidden fun u => if lowBit d then u.acknowledge else u :=
      .ite (fun _ _ _ => rfl) ignoresHidden_acknowledge fun _ _ _ => rfl
    exact (ha.agrees h).settles rfl rfl
  case nop => exact (h.runCommand .nop).settles rfl rfl
  case detect => exact (h.runCommand .detect).settles rfl rfl
  case enable => exact (h.runCommand .enable).settles rfl rfl
  case disable => exact (h.runCommand .disable).settles rfl rfl
  case addStep cbv line => exact (h.runCommand (.addStep cbv line)).settles rfl rfl
  case setDebug d => exact (h.runCommand (.setDebug d)).settles rfl rfl
  case softWrap => exact (h.runCommand .softWrap).settles rfl rfl
  case wrCompareLo d => exact h.exec (fun _ => rfl) fun _ _ _ => rfl
  case wrIrqEn d => exact h.exec (fun _ => rfl) fun _ _ _ => rfl
  case wrCmdLo d => exact h.exec (fun _ => rfl) fun _ _ _ => rfl
  case wrIgnored off d => exact h.settles rfl rfl
  all_goals exact h.exec (fun _ => rfl) (.answer (fun _ _ _ => rfl) fun _ _ _ => rfl)

/-- A step of the block that ignores both fields gives states that differ in DEBUG alone, from such states. -/
theorem IgnoresHidden.withDebug {X : State → State} (hX : IgnoresHidden X) (s : State) (b : Bool) :
    X (s.withDebug b) = (X s).withDebug b := by
  have h : X (s.withDebug b) = (X s).withHidden b s.scu.modeOther := hX s b s.scu.modeOther
  rw [h, ← (hX.keeps s).2]
  rfl

/-- The same for MODE_OTHER. -/
theorem IgnoresHidden.withModeOther {X : State → State} (hX : IgnoresHidden X) (s : State) (m : BitVec 7) :
    X (s.withModeOther m) = (X s).withModeOther m := by
  have h : X (s.withModeOther m) = (X s).withHidden s.seq.debug m := hX s s.seq.debug m
  rw [h, ← (hX.keeps s).1]
  rfl

/-- Settles O51: the two states agree in MODE_OTHER too, before and after. -/
theorem debugDoesNotChangeBehaviour : Obligations.DebugDoesNotChangeBehaviour := by
  refine ⟨ignoresHidden_beamStep.withDebug, fun s t b i hi he => ?_⟩
  have h : s.Agrees True False (s.withDebug b) := ⟨b, s.scu.modeOther, rfl, .inr trivial, .inl rfl⟩
  obtain ⟨u, v, hu, hv, b', m', rfl, -, hm⟩ := exec_agrees h i (fun h => absurd h hi) fun _ => not_false
  cases hu.symm.trans he
  refine ⟨_, hv, ?_⟩
  rw [hm.resolve_right not_false]
  rfl

/-- Settles O52: the two states agree in DEBUG too, before and after. -/
theorem modeOtherDoesNotChangeBehaviour : Obligations.ModeOtherDoesNotChangeBehaviour := by
  refine ⟨ignoresHidden_beamStep.withModeOther, fun s t m i hi he => ?_⟩
  have h : s.Agrees False True (s.withModeOther m) := ⟨s.seq.debug, m, rfl, .inl rfl, .inr trivial⟩
  obtain ⟨u, v, hu, hv, b', m', rfl, hb, -⟩ := exec_agrees h i (fun _ => not_false) fun h => absurd h hi
  cases hu.symm.trans he
  refine ⟨_, hv, ?_⟩
  rw [hb.resolve_right not_false]
  rfl

end Sys2Proof.Machine
end

section
/-! PROOFS. The state after reset (R41) and the two outputs (R36, R37). -/

namespace Sys2Proof.Machine

/-- Every entry of the step table is zero after reset. -/
theorem State.resetWith_stepAt (p : Params) (r : Line) (m : BitVec 7) (rom : Bool) (cb : Vector HostRoutine 8)
    (raw : HostRoutine) (boot loop : List HostOp) (k : StepIndex) :
    (State.resetWith p r m rom cb raw boot loop).stepAt k = { line := 0, cbv := false } :=
  Vector.getElem_replicate _

/-- Settles O8: each field but the step table is the literal of R41. -/
theorem resetGivesTheTabulatedValues : Obligations.ResetGivesTheTabulatedValues := by
  intro p r m rom cb raw boot loop
  exact ⟨rfl, rfl, rfl, rfl, rfl, rfl, rfl, State.resetWith_stepAt p r m rom cb raw boot loop, rfl, rfl, rfl, rfl,
    rfl, rfl, rfl, rfl, rfl, rfl, rfl, rfl, rfl⟩

/-- Disabled, idle, unmeasured and at zero, the state after reset meets every item of R40 but the two on its inputs. -/
theorem State.resetWith_inv (p : Params) (r : Line) (m : BitVec 7) (rom : Bool) (cb : Vector HostRoutine 8)
    (raw : HostRoutine) (boot loop : List HostOp) (hp : p.Valid) (hr : r.toNat < p.hwLines) :
    (State.resetWith p r m rom cb raw boot loop).Inv where
  params_valid := hp
  stepCount_le := Nat.zero_le _
  curIndex_lt := Nat.zero_lt_one
  cbWait_served := nofun
  detecting_alone := nofun
  enabled_valid := nofun
  millis_le := Nat.zero_le _
  drift_le := Nat.zero_le _
  regionA_drift := nofun
  metrics_known := nofun
  raster_lt := hr
  quiet := rfl
  unmeasured := fun _ => ⟨rfl, rfl⟩
  interrupt_masked := nofun

/-- Settles O9: the arming asks nothing of a disabled scheduler. -/
theorem resetSatisfiesTheInvariant : Obligations.ResetSatisfiesTheInvariant :=
  fun p r m rom cb raw boot loop hp hr => ⟨State.resetWith_inv p r m rom cb raw boot loop hp hr, nofun⟩

theorem State.callbackPending_iff (s : State) : s.callbackPending = true ↔ s.seq.seqState = .cbWait :=
  beq_iff_eq

/-- Settles O47: one case for each branch of R36's equation, and R37's. -/
theorem outputsFollowTheirEquations : Obligations.OutputsFollowTheirEquations := by
  refine fun s => ⟨fun hd => if_pos hd, fun hd he => ?_, fun hd he => ?_, ?_⟩
  · simp [State.irqOut, hd, he, s.callbackPending_iff]
  · simp [State.irqOut, hd, he]
  · simp [State.dbgFlag, s.callbackPending_iff]

end Sys2Proof.Machine
end

section
/-! PROOFS. The latched pairs (R33, R50): each hold latch is loaded by its own LO read and by nothing else, so a
later HI read gives the high byte of the value whose low byte the LO read gave. -/

namespace Sys2Proof.Machine

/-! ### What loads a hold latch -/

/-- The hold latches after an instruction: each is loaded by its own LO read and kept by every other instruction (R33,
R50, R53). -/
def State.latched (s : State) (i : Instr) : HoldLatches where
  raster := if i = .rdRasterLo then lineHigh s.scu.raster else s.hold.raster
  total := if i = .rdTotalLinesLo then highByte s.metrics.totalLines else s.hold.total
  meas := if i = .rdMeasuredLo then highByte s.metrics.measured else s.hold.meas
  fc := if i = .rdFcLo then highByte s.clock.frameCounter else s.hold.fc
  sec := if i = .rdSecLo then highByte s.clock.seconds else s.hold.sec
  ms := if i = .rdMsLo then highByte s.clock.millis else s.hold.ms
  drift := if i = .rdDriftLo then highByte s.clock.drift else s.hold.drift

@[simp] theorem State.compareMatch_hold (s : State) : s.compareMatch.hold = s.hold := by
  unfold State.compareMatch; split <;> rfl
@[simp] theorem State.detSample_hold (s : State) : s.detSample.hold = s.hold := by
  unfold State.detSample; split <;> (try split) <;> rfl
@[simp] theorem State.settle_hold (s : State) : s.settle.hold = s.hold := s.settle_frame.hold
@[simp] theorem State.beamStep_hold (s : State) : s.beamStep.hold = s.hold := by
  simp [State.beamStep]

@[simp] theorem State.acknowledge_hold (s : State) : s.acknowledge.hold = s.hold := by
  unfold State.acknowledge; split <;> rfl
@[simp] theorem State.runDetect_hold (s : State) : s.runDetect.hold = s.hold := by
  unfold State.runDetect; split <;> rfl
@[simp] theorem State.runEnable_hold (s : State) : s.runEnable.hold = s.hold := by
  unfold State.runEnable; split <;> rfl
@[simp] theorem State.runAddStep_hold (s : State) (cbv : Bool) (line : Line) :
    (s.runAddStep cbv line).hold = s.hold := by
  unfold State.runAddStep; split <;> (try split) <;> rfl
@[simp] theorem State.runSoftWrap_hold (s : State) : s.runSoftWrap.hold = s.hold := by
  unfold State.runSoftWrap; split <;> (try split) <;> rfl

@[simp] theorem State.runCommand_hold (s : State) (c : Instr) : (s.runCommand c).hold = s.hold := by
  cases c
  case detect => exact s.runDetect_hold
  case enable => exact s.runEnable_hold
  case addStep cbv line => exact s.runAddStep_hold cbv line
  case softWrap => exact s.runSoftWrap_hold
  all_goals rfl

@[simp] theorem State.runWord_hold (s : State) (w : Half) : (s.runWord w).hold = s.hold := by
  unfold State.runWord
  split
  · exact s.runCommand_hold _
  · rfl

theorem exec_hold (i : Instr) {s t : State} (h : exec i s = .next t) : t.hold = s.latched i := by
  cases i <;> cases h <;> rw [State.settle_hold]
  case wrIrqStatus d =>
    split
    · exact s.acknowledge_hold
    · rfl
  case wrCmdHi d => exact s.runWord_hold _
  case detect => exact s.runDetect_hold
  case enable => exact s.runEnable_hold
  case addStep cbv line => exact s.runAddStep_hold cbv line
  case softWrap => exact s.runSoftWrap_hold
  case wrCompareLo | wrMode | wrIrqEn | wrCmdLo | wrIgnored | nop | disable | setDebug => rfl
  all_goals exact State.returnByte_hold _ _

/-! ### A latched pair -/

/-- The read goes on with the byte it returns in the host's thread: the settle leaves the host alone (R71). -/
theorem State.answer_data {s t : State} {d : Byte} (h : s.answer d = .next t) : t.thread.data = d := by
  cases h
  rw [State.thread_congr (State.settle_frame _).host, State.returnByte_thread]

/-- `lo` and `hi` are the reads of one latched pair: `low` is the live byte `lo` returns, `latch` the byte `hi` returns,
which `lo` alone loads, and the two make up `value` (R50). -/
structure LatchedPair (lo hi : Instr) (low : State → Byte) (latch : HoldLatches → Byte) (value : State → Nat) :
    Prop where
  lo_answers : ∀ s, exec lo s = ({ s with hold := s.latched lo } : State).answer (low s)
  hi_answers : ∀ s, exec hi s = s.answer (latch s.hold)
  loaded_by_lo_alone : ∀ (s : State) (i : Instr), i ≠ lo → latch (s.latched i) = latch s.hold
  value_eq : ∀ s, (low s).toNat + 256 * (latch (s.latched lo)).toNat = value s

section
variable {lo hi : Instr} {low : State → Byte} {latch : HoldLatches → Byte} {value : State → Nat}
  (h : LatchedPair lo hi low latch value)
include h

theorem LatchedPair.blockStep_keeps_latch (s : State) (o : Option Instr) (ho : o ≠ some lo) :
    latch (s.blockStep o).hold = latch s.hold := by
  cases o with
  | none => exact congrArg latch s.beamStep_hold
  | some i =>
    obtain ⟨u, hu⟩ := exec_settles i s
    have hi : i ≠ lo := fun hi => ho (congrArg some hi)
    rw [State.blockStep, hu, exec_hold i hu]
    exact h.loaded_by_lo_alone s i hi

theorem LatchedPair.blockRun_keeps_latch (s : State) (os : List (Option Instr)) (hos : some lo ∉ os) :
    latch (s.blockRun os).hold = latch s.hold := by
  induction os generalizing s with
  | nil => rfl
  | cons o os ih =>
    have ho : o ≠ some lo := (List.ne_of_not_mem_cons hos).symm
    exact (ih _ (List.not_mem_of_not_mem_cons hos)).trans (h.blockStep_keeps_latch s o ho)

/-- The run between the two reads leaves the latch as the LO read loaded it. -/
theorem LatchedPair.readsConsistently : ReadsConsistently lo hi value := by
  intro s os hos
  obtain ⟨t, ht⟩ := exec_settles lo s
  obtain ⟨u, hu⟩ := exec_settles hi (t.settle.blockRun os)
  have hlo : t.settle.thread.data = low s := State.answer_data ((h.lo_answers s).symm.trans ht)
  have hhi : u.settle.thread.data = latch (s.latched lo) := by
    rw [State.answer_data ((h.hi_answers _).symm.trans hu), h.blockRun_keeps_latch _ os hos, exec_hold lo ht]
  exact ⟨_, _, ht, hu, by rw [hlo, hhi, h.value_eq]⟩

end

/-! ### The seven pairs -/

theorem lowByte_add_highByte (v : Half) : (lowByte v).toNat + 256 * (highByte v).toNat = v.toNat := by
  rw [lowByte_toNat, highByte_toNat, Nat.mod_add_div]

theorem lineLow_add_lineHigh (l : Line) : (lineLow l).toNat + 256 * (bitByte (lineHigh l)).toNat = l.toNat := by
  rw [lineLow_toNat, bitByte_toNat, lineHigh_toNat, Nat.mod_add_div]

theorem latchedPair_raster :
    LatchedPair .rdRasterLo .rdRasterHi (lineLow ·.scu.raster) (bitByte ·.raster) (·.scu.raster.toNat) :=
  ⟨fun _ => rfl, fun _ => rfl, fun _ _ hi => congrArg bitByte (if_neg hi), fun _ => lineLow_add_lineHigh _⟩

theorem latchedPair_totalLines :
    LatchedPair .rdTotalLinesLo .rdTotalLinesHi (lowByte ·.metrics.totalLines) (·.total)
      (·.metrics.totalLines.toNat) :=
  ⟨fun _ => rfl, fun _ => rfl, fun _ _ hi => if_neg hi, fun _ => lowByte_add_highByte _⟩

theorem latchedPair_measured :
    LatchedPair .rdMeasuredLo .rdMeasuredHi (lowByte ·.metrics.measured) (·.meas) (·.metrics.measured.toNat) :=
  ⟨fun _ => rfl, fun _ => rfl, fun _ _ hi => if_neg hi, fun _ => lowByte_add_highByte _⟩

theorem latchedPair_frameCounter :
    LatchedPair .rdFcLo .rdFcHi (lowByte ·.clock.frameCounter) (·.fc) (·.clock.frameCounter.toNat) :=
  ⟨fun _ => rfl, fun _ => rfl, fun _ _ hi => if_neg hi, fun _ => lowByte_add_highByte _⟩

theorem latchedPair_seconds :
    LatchedPair .rdSecLo .rdSecHi (lowByte ·.clock.seconds) (·.sec) (·.clock.seconds.toNat) :=
  ⟨fun _ => rfl, fun _ => rfl, fun _ _ hi => if_neg hi, fun _ => lowByte_add_highByte _⟩

theorem latchedPair_millis :
    LatchedPair .rdMsLo .rdMsHi (lowByte ·.clock.millis) (·.ms) (·.clock.millis.toNat) :=
  ⟨fun _ => rfl, fun _ => rfl, fun _ _ hi => if_neg hi, fun _ => lowByte_add_highByte _⟩

theorem latchedPair_drift :
    LatchedPair .rdDriftLo .rdDriftHi (lowByte ·.clock.drift) (·.drift) (·.clock.drift.toNat) :=
  ⟨fun _ => rfl, fun _ => rfl, fun _ _ hi => if_neg hi, fun _ => lowByte_add_highByte _⟩

/-- Settles O20, pair by pair: the run between the two reads keeps the latch. -/
theorem latchedPairsReadConsistently : Obligations.LatchedPairsReadConsistently :=
  ⟨latchedPair_raster.readsConsistently, latchedPair_totalLines.readsConsistently,
    latchedPair_measured.readsConsistently, latchedPair_frameCounter.readsConsistently,
    latchedPair_seconds.readsConsistently, latchedPair_millis.readsConsistently,
    latchedPair_drift.readsConsistently⟩

end Sys2Proof.Machine
end

section
/-! SUPPORT. The decoder and the encoder, an equation per case (spec/30_encoding.md R62–R66). -/

namespace Sys2Proof

/-! ### BUS15 -/

@[simp] theorem decode_encodeRead (off : Offset) : decode (encodeRead off) = .ok (decodeRead off) := by
  simp [encodeRead, decode]

@[simp] theorem decode_encodeWrite (off : Offset) (d : Byte) :
    decode (encodeWrite off d) = .ok (decodeWrite off d) := by
  simp [encodeWrite, decode]

theorem decodeRead_stepLo : ∀ k : StepIndex, decodeRead (0b01#2 ++ k ++ 0#1) = .rdStepLo k := by decide

theorem decodeRead_stepHi : ∀ k : StepIndex, decodeRead (0b01#2 ++ k ++ 1#1) = .rdStepHi k := by decide

theorem decodeRead_reserved : ∀ off : Offset, reservedOffset off = true → decodeRead off = .rdReserved off := by decide

theorem decodeBus_of_read {w : BusWord} (h : busIsWrite w = false) : decodeBus w = decodeRead (busOffset w) :=
  if_neg (by simp [h])

theorem decodeBus_of_write {w : BusWord} (h : busIsWrite w = true) :
    decodeBus w = decodeWrite (busOffset w) (busData w) :=
  if_pos h

/-- An ignored write carries its offset and its DATA (R110). -/
theorem decodeWrite_ignored (off : Offset) (d : Byte) (h : ignoredOffset off = true) :
    decodeWrite off d = .wrIgnored off d := by
  unfold decodeWrite
  split
  case h_7 => rfl
  all_goals simp_all [ignoredOffset] -- the six registers' offsets are not ignored

/-- What an offset's write is: one of the six registers', or an ignored one (R67). -/
theorem decodeWrite_cases (off : Offset) (d : Byte) :
    (off = 0x02 ∧ decodeWrite off d = .wrCompareLo d) ∨ (off = 0x03 ∧ decodeWrite off d = .wrMode d)
      ∨ (off = 0x04 ∧ decodeWrite off d = .wrIrqStatus d) ∨ (off = 0x05 ∧ decodeWrite off d = .wrIrqEn d)
      ∨ (off = 0x08 ∧ decodeWrite off d = .wrCmdLo d) ∨ (off = 0x09 ∧ decodeWrite off d = .wrCmdHi d)
      ∨ (ignoredOffset off = true ∧ decodeWrite off d = .wrIgnored off d) := by
  have hoff : ∀ o : Offset, ignoredOffset o = true ∨ o = 0x02 ∨ o = 0x03 ∨ o = 0x04 ∨ o = 0x05 ∨ o = 0x08
      ∨ o = 0x09 := by decide
  obtain h | rfl | rfl | rfl | rfl | rfl | rfl := hoff off
  · simp [h, decodeWrite_ignored off d h]
  all_goals simp [decodeWrite]

/-- A read is encoded back from its offset alone (R62). -/
theorem encode_decodeRead : ∀ off : Offset, encode (decodeRead off) = encodeRead off := by decide

theorem encode_decodeWrite (off : Offset) (d : Byte) : encode (decodeWrite off d) = encodeWrite off d := by
  obtain ⟨rfl, h⟩ | ⟨rfl, h⟩ | ⟨rfl, h⟩ | ⟨rfl, h⟩ | ⟨rfl, h⟩ | ⟨rfl, h⟩ | ⟨-, h⟩ := decodeWrite_cases off d <;>
    rw [h] <;> rfl

/-! ### CMD16 -/

/-- A field is 0 exactly when its quotient and remainder is (R9). -/
theorem field_eq_zero_iff {n : Nat} (v : BitVec n) (lo k : Nat) :
    v.extractLsb' lo k = 0 ↔ v.toNat / 2 ^ lo % 2 ^ k = 0 := by
  rw [← toNat_field, ← BitVec.toNat_inj]
  rfl

/-- A command word is its two fields (R63). -/
theorem cmdWord_fields (w : Half) : cmdWord (cmdOp w) (cmdArg w) = w := by
  have := w.isLt
  apply BitVec.eq_of_toNat_eq
  rw [cmdWord_toNat, cmdOp, cmdArg, toNat_field, toNat_field]
  omega

theorem addStepArg_toNat (cbv : Bool) (line : Line) :
    (addStepArg cbv line).toNat = cbv.toNat * 0x800 + line.toNat := by
  have h1 : (addStepArg cbv line).toNat = (BitVec.ofBool cbv ++ 0#2).toNat * 2 ^ 9 + line.toNat := toNat_concat _ _
  have h2 : (BitVec.ofBool cbv ++ 0#2).toNat = cbv.toNat * 2 ^ 2 + 0 :=
    (toNat_concat _ _).trans (by rw [BitVec.toNat_ofBool]; rfl)
  rw [h1, h2]
  omega

@[simp] theorem argLine_addStepArg (cbv : Bool) (line : Line) : argLine (addStepArg cbv line) = line := by
  have := line.isLt
  apply BitVec.eq_of_toNat_eq
  rw [argLine, toNat_field, addStepArg_toNat]
  omega

@[simp] theorem argCbv_addStepArg (cbv : Bool) (line : Line) : argCbv (addStepArg cbv line) = cbv := by
  have := line.isLt
  rw [argCbv, bit_eq, addStepArg_toNat]
  cases cbv <;> simp only [Bool.toNat_false, Bool.toNat_true, decide_eq_true_eq, decide_eq_false_iff_not] <;> omega

@[simp] theorem reserved_addStepArg (cbv : Bool) (line : Line) : (addStepArg cbv line).extractLsb' 9 2 = 0 := by
  have := line.isLt
  rw [field_eq_zero_iff, addStepArg_toNat]
  omega

/-- ADD_STEP's ARG with clear reserved bits is its CBV and its LINE (R64, R65). -/
theorem addStepArg_fields (arg : BitVec 12) (h : arg.extractLsb' 9 2 = 0) :
    addStepArg (argCbv arg) (argLine arg) = arg := by
  have := arg.isLt
  have h9 := (field_eq_zero_iff arg 9 2).mp h
  have hcbv : (argCbv arg).toNat = arg.toNat / 2 ^ 11 % 2 := Nat.toNat_testBit _ _
  apply BitVec.eq_of_toNat_eq
  rw [addStepArg_toNat, hcbv, argLine, toNat_field]
  omega

/-- SET_DEBUG's ARG with clear reserved bits is its D (R64, R65). -/
theorem setDebugArg_fields (arg : BitVec 12) (h : arg.extractLsb' 1 11 = 0) :
    setDebugArg (argDebug arg) = arg := by
  have := arg.isLt
  have h1 := (field_eq_zero_iff arg 1 11).mp h
  have hd : (argDebug arg).toNat = arg.toNat / 2 ^ 0 % 2 := Nat.toNat_testBit _ _
  have ha : (setDebugArg (argDebug arg)).toNat = 0 * 2 ^ 1 + (BitVec.ofBool (argDebug arg)).toNat :=
    toNat_concat _ _
  apply BitVec.eq_of_toNat_eq
  rw [ha, BitVec.toNat_ofBool, hd]
  omega

/-- The commands whose ARG is all reserved, with their OP (R64). -/
def plainCommands : List (BitVec 4 × Instr) :=
  [(0x0, .nop), (0x1, .detect), (0x2, .enable), (0x3, .disable), (0x6, .softWrap)]

/-- Which command a word's OP names, if any (R64, R66). -/
theorem cmdWord_cases (w : Half) :
    ∃ arg, (∃ c ∈ plainCommands, w = cmdWord c.1 arg) ∨ w = cmdWord 0x4 arg ∨ w = cmdWord 0x5 arg
      ∨ ∃ op : BitVec 4, 7 ≤ op.toNat ∧ w = cmdWord op arg := by
  have hop : ∀ op : BitVec 4, (∃ c ∈ plainCommands, op = c.1) ∨ op = 0x4 ∨ op = 0x5 ∨ 7 ≤ op.toNat := by decide
  refine ⟨cmdArg w, ?_⟩
  have hw := (cmdWord_fields w).symm
  obtain ⟨c, hc, h⟩ | h | h | h := hop (cmdOp w)
  · exact .inl ⟨c, hc, h ▸ hw⟩
  · exact .inr (.inl (h ▸ hw))
  · exact .inr (.inr (.inl (h ▸ hw)))
  · exact .inr (.inr (.inr ⟨_, h, hw⟩))

theorem decodeCmd_plain (arg : BitVec 12) :
    ∀ c ∈ plainCommands, decodeCmd (cmdWord c.1 arg) = ifClear (arg == 0) c.2 := by
  simp [plainCommands, decodeCmd]

theorem decodeCmd_addStep (arg : BitVec 12) :
    decodeCmd (cmdWord 0x4 arg) = ifClear (arg.extractLsb' 9 2 == 0) (.addStep (argCbv arg) (argLine arg)) := by
  simp [decodeCmd]

theorem decodeCmd_setDebug (arg : BitVec 12) :
    decodeCmd (cmdWord 0x5 arg) = ifClear (arg.extractLsb' 1 11 == 0) (.setDebug (argDebug arg)) := by
  simp [decodeCmd]

theorem decodeCmd_undefined (op : BitVec 4) (arg : BitVec 12) (h : 7 ≤ op.toNat) :
    decodeCmd (cmdWord op arg) = .error .opcode := by
  rw [decodeCmd, cmdOp_cmdWord]
  split
  case h_8 => rfl
  all_goals omega

theorem encode_plain : ∀ c ∈ plainCommands, encode c.2 = .cmd (cmdWord c.1 0) := by decide

theorem ifClear_eq_ok (c : Bool) (i j : Instr) : ifClear c i = .ok j ↔ c = true ∧ i = j := by
  cases c <;> simp [ifClear]

theorem ifClear_eq_error (c : Bool) (i : Instr) : (∃ e, ifClear c i = .error e) ↔ c = false := by
  cases c <;> simp [ifClear]

/-! ### Both formats -/

theorem decode_encode (i : Instr) (h : i.WellFormed) : decode (encode i) = .ok i := by
  cases i with
  | rdStepLo k => rw [encode, decode_encodeRead, decodeRead_stepLo]
  | rdStepHi k => rw [encode, decode_encodeRead, decodeRead_stepHi]
  | rdReserved off => rw [encode, decode_encodeRead, decodeRead_reserved off h]
  | wrIgnored off d => rw [encode, decode_encodeWrite, decodeWrite_ignored off d h]
  | addStep cbv line => exact (decodeCmd_addStep _).trans (by simp [ifClear])
  | setDebug d => cases d <;> rfl
  | wrCompareLo d | wrMode d | wrIrqStatus d | wrIrqEn d | wrCmdLo d | wrCmdHi d => exact decode_encodeWrite _ d
  | _ => rfl

end Sys2Proof
end

section
/-! SUPPORT. What a decoded word is encoded back to, which command words are reserved, and the rows of the opcode table
a word is in (spec/30_encoding.md R62–R67). -/

namespace Sys2Proof

/-! ### What a decoded word is encoded back to -/

theorem encode_decodeBus_write (w : BusWord) (h : busIsWrite w = true) : encode (decodeBus w) = .bus w := by
  rw [decodeBus_of_write h, encode_decodeWrite, encodeWrite, ← h, busWord_fields]

theorem encode_decodeBus_read (w : BusWord) (h : busIsWrite w = false) :
    encode (decodeBus w) = .bus (busWord false (busOffset w) 0) := by
  rw [decodeBus_of_read h, encode_decodeRead, encodeRead]

theorem encode_decodeCmd (w : Half) (i : Instr) (h : decodeCmd w = .ok i) : encode i = .cmd w := by
  obtain ⟨arg, ⟨c, hc, rfl⟩ | rfl | rfl | ⟨op, hop, rfl⟩⟩ := cmdWord_cases w
  · rw [decodeCmd_plain arg c hc, ifClear_eq_ok, beq_iff_eq] at h
    obtain ⟨rfl, rfl⟩ := h
    exact encode_plain c hc
  · rw [decodeCmd_addStep, ifClear_eq_ok, beq_iff_eq] at h
    obtain ⟨ha, rfl⟩ := h
    rw [encode, addStepArg_fields arg ha]
  · rw [decodeCmd_setDebug, ifClear_eq_ok, beq_iff_eq] at h
    obtain ⟨ha, rfl⟩ := h
    rw [encode, setDebugArg_fields arg ha]
  · rw [decodeCmd_undefined op arg hop] at h
    cases h

/-! ### Which command words are reserved -/

/-- R66's list: OP 0x7 .. 0xF, and the reserved ARG bits of each defined OP. -/
theorem decodeCmd_eq_error_iff (w : Half) :
    (∃ e, decodeCmd w = .error e) ↔
      7 ≤ w.toNat / 4096
        ∨ ((w.toNat / 4096 ≤ 3 ∨ w.toNat / 4096 = 6) ∧ w.toNat % 4096 ≠ 0)
        ∨ (w.toNat / 4096 = 4 ∧ w.toNat / 512 % 4 ≠ 0)
        ∨ (w.toNat / 4096 = 5 ∧ w.toNat % 4096 / 2 ≠ 0) := by
  obtain ⟨arg, ⟨c, hc, rfl⟩ | rfl | rfl | ⟨op, hop, rfl⟩⟩ := cmdWord_cases w
  all_goals have ha := arg.isLt
  · have hop : c.1.toNat ≤ 3 ∨ c.1.toNat = 6 := by revert c; decide
    have h0 : arg = 0 ↔ arg.toNat = 0 := BitVec.toNat_inj.symm
    rw [decodeCmd_plain arg c hc, ifClear_eq_error, beq_eq_false_iff_ne, ne_eq, h0, cmdWord_toNat]
    omega
  · have h4 : (0x4 : BitVec 4).toNat = 4 := rfl
    rw [decodeCmd_addStep, ifClear_eq_error, beq_eq_false_iff_ne, ne_eq, field_eq_zero_iff, cmdWord_toNat, h4]
    omega
  · have h5 : (0x5 : BitVec 4).toNat = 5 := rfl
    rw [decodeCmd_setDebug, ifClear_eq_error, beq_eq_false_iff_ne, ne_eq, field_eq_zero_iff, cmdWord_toNat, h5]
    omega
  · refine iff_of_true ⟨_, decodeCmd_undefined op arg hop⟩ (.inl ?_)
    rw [cmdWord_toNat]
    omega

/-! ### The rows of a command word -/

theorem cmdWord_eq_iff (op : BitVec 4) (arg : BitVec 12) (w : Half) :
    cmdWord op arg = w ↔ op = cmdOp w ∧ arg = cmdArg w := by
  constructor
  · rintro rfl
    simp
  · rintro ⟨rfl, rfl⟩
    exact cmdWord_fields w

/-- A CMD16 row asks for one OP, and for the bits of ARG under its mask (R64, R67). -/
theorem rowMatches_cmdWord (r : TableRow 16) (h : cmdOp r.mask = 0xF) (op : BitVec 4) (arg : BitVec 12) :
    rowMatches 16 r (cmdWord op arg) = (arg &&& cmdArg r.mask == cmdArg r.pat && cmdOp r.pat == op) := by
  have hm : cmdWord op arg &&& r.mask = cmdWord op (arg &&& cmdArg r.mask) := by
    conv_lhs => rw [← cmdWord_fields r.mask, h]
    exact BitVec.and_append.trans (congrArg (cmdWord · _) BitVec.and_allOnes)
  rw [rowMatches, hm, Bool.eq_iff_iff, Bool.and_eq_true, beq_iff_eq, beq_iff_eq, beq_iff_eq, cmdWord_eq_iff,
    and_comm, eq_comm (a := op)]

theorem cmdRows_mask_op : ∀ r ∈ cmdRows, cmdOp r.mask = 0xF := by
  have h : (cmdRows.all fun r => cmdOp r.mask == 0xF) = true := by decide
  simpa using h

/-- The rows of a command word are those of its OP whose part of ARG it meets. -/
theorem cmdRowsOf_cmdWord (op : BitVec 4) (arg : BitVec 12) :
    cmdRowsOf (cmdWord op arg)
      = (cmdRows.filter fun r => cmdOp r.pat == op).filter fun r => arg &&& cmdArg r.mask == cmdArg r.pat := by
  rw [List.filter_filter]
  exact List.filter_congr fun r hr => rowMatches_cmdWord r (cmdRows_mask_op r hr) op arg

/-- An OP with one row: the word is in it or in none. -/
theorem cmdRowsOf_of_op {op : BitVec 4} {r : TableRow 16} (h : (cmdRows.filter fun r => cmdOp r.pat == op) = [r])
    (arg : BitVec 12) :
    cmdRowsOf (cmdWord op arg) = if arg &&& cmdArg r.mask == cmdArg r.pat then [r] else [] := by
  rw [cmdRowsOf_cmdWord, h, List.filter_singleton, Bool.cond_eq_ite]

/-- The bits of `v` under a mask are all 0 exactly when the field the mask covers is. -/
theorem and_fieldMask_eq_zero {n : Nat} (v : BitVec n) (lo k : Nat) (h : lo + k ≤ n) :
    v &&& ((BitVec.allOnes k).setWidth n <<< lo) = 0 ↔ v.extractLsb' lo k = 0 := by
  constructor
  · intro hv
    ext i hi
    have hbit := congrArg (·.getLsbD (lo + i)) hv
    simpa [hi, show lo + i < n by omega] using hbit
  · intro hv
    ext i hi
    by_cases hin : lo ≤ i ∧ i < lo + k
    · have hbit := congrArg (·.getLsbD (i - lo)) hv
      have hv0 : v[i] = false := by
        simpa [show i - lo < k by omega, show lo + (i - lo) = i by omega, BitVec.getLsbD_eq_getElem hi] using hbit
      simp [hv0]
    · simp
      omega

/-- One row with the command's mnemonic, which a word of that OP is in when its reserved ARG bits are 0 (R64). -/
theorem cmdRowsOf_plain (arg : BitVec 12) (c : BitVec 4 × Instr) (hc : c ∈ plainCommands) :
    ∃ r, cmdRowsOf (cmdWord c.1 arg) = (if arg == 0 then [r] else []) ∧ r.names c.2 = true := by
  obtain ⟨r, hr, hm, hp, hn⟩ : ∃ r, (cmdRows.filter fun r => cmdOp r.pat == c.1) = [r] ∧ cmdArg r.mask = .allOnes 12
      ∧ cmdArg r.pat = 0 ∧ r.names c.2 = true := by
    revert c
    simp only [plainCommands, List.forall_mem_cons]
    exact ⟨⟨_, rfl, rfl, rfl, rfl⟩, ⟨_, rfl, rfl, rfl, rfl⟩, ⟨_, rfl, rfl, rfl, rfl⟩, ⟨_, rfl, rfl, rfl, rfl⟩,
      ⟨_, rfl, rfl, rfl, rfl⟩, nofun⟩
  exact ⟨r, by rw [cmdRowsOf_of_op hr, hm, hp, BitVec.and_allOnes], hn⟩

/-- An OP with one row that masks one field of ARG: the word is in it when that field is 0. -/
theorem cmdRowsOf_of_field {op : BitVec 4} {r : TableRow 16} {lo k : Nat}
    (h : (cmdRows.filter fun r => cmdOp r.pat == op) = [r])
    (hm : cmdArg r.mask = (BitVec.allOnes k).setWidth 12 <<< lo)
    (hp : cmdArg r.pat = 0) (hk : lo + k ≤ 12) (arg : BitVec 12) :
    cmdRowsOf (cmdWord op arg) = if arg.extractLsb' lo k == 0 then [r] else [] := by
  simp only [cmdRowsOf_of_op h, hm, hp, beq_iff_eq, and_fieldMask_eq_zero arg lo k hk]

theorem cmdRowsOf_addStep (arg : BitVec 12) (cbv : Bool) (line : Line) :
    ∃ r, cmdRowsOf (cmdWord 0x4 arg) = (if arg.extractLsb' 9 2 == 0 then [r] else [])
      ∧ r.names (.addStep cbv line) = true :=
  ⟨_, cmdRowsOf_of_field rfl rfl rfl (by decide) arg, rfl⟩

theorem cmdRowsOf_setDebug (arg : BitVec 12) (d : Bool) :
    ∃ r, cmdRowsOf (cmdWord 0x5 arg) = (if arg.extractLsb' 1 11 == 0 then [r] else [])
      ∧ r.names (.setDebug d) = true :=
  ⟨_, cmdRowsOf_of_field rfl rfl rfl (by decide) arg, rfl⟩

theorem cmdRowsOf_undefined (op : BitVec 4) (arg : BitVec 12) (h : 7 ≤ op.toNat) :
    cmdRowsOf (cmdWord op arg) = [] := by
  have hop : ∀ r ∈ cmdRows, (cmdOp r.pat).toNat < 7 := by
    have h : (cmdRows.all fun r => decide ((cmdOp r.pat).toNat < 7)) = true := by decide
    simpa using h
  have hno : (cmdRows.filter fun r => cmdOp r.pat == op) = [] :=
    List.filter_eq_nil_iff.mpr fun r hr he => by
      have := hop r hr
      rw [beq_iff_eq.mp he] at this
      omega
  rw [cmdRowsOf_cmdWord, hno, List.filter_nil]

/-- A word with the same check for its decoding and its row decodes in that row, or is reserved and in none (R67). -/
theorem decodesInRow_or_reserved {w : Half} {clear : Bool} {i : Instr} (hd : decodeCmd w = ifClear clear i)
    (hr : ∃ r, cmdRowsOf w = (if clear then [r] else []) ∧ r.names i = true) :
    (∃ i r, decodeCmd w = .ok i ∧ cmdRowsOf w = [r] ∧ r.names i = true)
      ∨ ∃ e, decodeCmd w = .error e ∧ cmdRowsOf w = [] := by
  obtain ⟨r, hr, hn⟩ := hr
  cases clear with
  | true => exact .inl ⟨i, r, hd, hr, hn⟩
  | false => exact .inr ⟨_, hd, hr⟩

theorem cmdRowsOf_cases (w : Half) :
    (∃ i r, decodeCmd w = .ok i ∧ cmdRowsOf w = [r] ∧ r.names i = true)
      ∨ ∃ e, decodeCmd w = .error e ∧ cmdRowsOf w = [] := by
  obtain ⟨arg, ⟨c, hc, rfl⟩ | rfl | rfl | ⟨op, hop, rfl⟩⟩ := cmdWord_cases w
  · exact decodesInRow_or_reserved (decodeCmd_plain arg c hc) (cmdRowsOf_plain arg c hc)
  · exact decodesInRow_or_reserved (decodeCmd_addStep arg) (cmdRowsOf_addStep arg _ _)
  · exact decodesInRow_or_reserved (decodeCmd_setDebug arg) (cmdRowsOf_setDebug arg _)
  · exact .inr ⟨_, decodeCmd_undefined op arg hop, cmdRowsOf_undefined op arg hop⟩

/-! ### The row of a bus transaction -/

/-- Two BUS15 rows ask for different bits where both masks look (R67). -/
theorem busRows_apart : busRows.Pairwise fun r r' => r.pat &&& r'.mask ≠ r'.pat &&& r.mask := by
  decide

/-- A word in two rows has the bits of both where both masks look. -/
theorem pat_and_mask_eq_of_rowMatches {n : Nat} {r r' : TableRow n} {w : BitVec n} (h : rowMatches n r w = true)
    (h' : rowMatches n r' w = true) : r.pat &&& r'.mask = r'.pat &&& r.mask := by
  rw [← beq_iff_eq.mp h, ← beq_iff_eq.mp h', BitVec.and_assoc, BitVec.and_assoc, BitVec.and_comm r.mask]

/-- A transaction in a BUS15 row is in no other. -/
theorem busRowsOf_eq_singleton {w : BusWord} {r : TableRow 15} (hr : r ∈ busRows) (hw : rowMatches 15 r w = true) :
    busRowsOf w = [r] := by
  have hone : (busRowsOf w).Pairwise fun _ _ => False :=
    List.pairwise_filter.mpr (busRows_apart.imp fun hne h h' => hne (pat_and_mask_eq_of_rowMatches h h'))
  have hmem : r ∈ busRowsOf w := List.mem_filter.mpr ⟨hr, hw⟩
  match hrows : busRowsOf w with
  | [] => simp [hrows] at hmem
  | [r'] => rw [hrows, List.mem_singleton] at hmem; rw [hmem]
  | _ :: _ :: _ => exact (List.rel_of_pairwise_cons (hrows ▸ hone) List.mem_cons_self).elim

theorem decodeRead_inRow :
    ∀ off : Offset, Laws.EncodingRow.InRow (decodeRead off) (.bus (busWord false off 0)) = true := by decide

theorem decodeWrite_inRow (off : Offset) (d : Byte) : Laws.EncodingRow.Statement (decodeWrite off d) := by
  obtain ⟨-, h⟩ | ⟨-, h⟩ | ⟨-, h⟩ | ⟨-, h⟩ | ⟨-, h⟩ | ⟨-, h⟩ | ⟨-, h⟩ := decodeWrite_cases off d <;> rw [h]
  · exact Laws.EncodingRow.wrCompareLo d
  · exact Laws.EncodingRow.wrMode d
  · exact Laws.EncodingRow.wrIrqStatus d
  · exact Laws.EncodingRow.wrIrqEn d
  · exact Laws.EncodingRow.wrCmdLo d
  · exact Laws.EncodingRow.wrCmdHi d
  · exact Laws.EncodingRow.wrIgnored off d

/-- A transaction is in a row that has the mnemonic of its instruction. -/
theorem decodeBus_inRow (w : BusWord) : Laws.EncodingRow.InRow (decodeBus w) (.bus w) = true := by
  cases h : busIsWrite w with
  | false =>
    rw [decodeBus_of_read h, ← busWord_fields w, h, busOffset_busWord, Laws.EncodingRow.inRow_data]
    exact decodeRead_inRow _
  | true =>
    rw [← encode_decodeBus_write w h, decodeBus_of_write h]
    exact decodeWrite_inRow _ _ (decodeWrite_wf _ _)

theorem busRowsOf_decodeBus (w : BusWord) : ∃ r, busRowsOf w = [r] ∧ r.names (decodeBus w) = true := by
  obtain ⟨r, hr, h⟩ := List.any_eq_true.mp (decodeBus_inRow w)
  obtain ⟨hw, hn⟩ := Bool.and_eq_true_iff.mp h
  exact ⟨r, busRowsOf_eq_singleton hr hw, hn⟩

end Sys2Proof
end

section
/-! SUPPORT. How a transaction ends in a quiet state, and what a reserved command word does (spec/30_encoding.md R66,
spec/42_scheduler.md R125, R135). -/

namespace Sys2Proof.Machine

/-! ### The ends of a transaction in a quiet state -/

theorem State.finish_quiet (s : State) (h : s.Quiet) : s.finish = .next s := by
  rw [s.finish_next, s.settle_quiet h]

theorem State.answer_quiet (s : State) (d : Byte) (h : s.Quiet) : s.answer d = .next (s.returnByte d) := by
  rw [s.answer_next, State.settle_quiet _ ((s.firePending_returnByte d).trans h)]

/-! ### Reserved command words -/

theorem highByte_append_lowByte (w : Half) : highByte w ++ lowByte w = w := by
  apply BitVec.eq_of_toNat_eq
  have h : (highByte w ++ lowByte w).toNat = (highByte w).toNat * 2 ^ 8 + (lowByte w).toNat := toNat_concat _ _
  rw [h, highByte_toNat, lowByte_toNat]
  omega

/-- A reserved word written to CMD_HI runs R135's rule: the error alone (R66). -/
theorem raisesBadCommand_of_reserved {w : Half} (h : ∃ e, decodeCmd w = .error e) : RaisesBadCommand w := by
  intro s hq hlo
  obtain ⟨e, he⟩ := h
  have hword : s.commandWord (highByte w) = w := by rw [State.commandWord, hlo, highByte_append_lowByte]
  have hrun : s.runWord w = s.afterError .badCommand 0x02 := by simp only [State.runWord, he]; rfl
  calc exec (.wrCmdHi (highByte w)) s = (s.runWord (s.commandWord (highByte w))).finish := rfl
    _ = (s.afterError .badCommand 0x02).finish := by rw [hword, hrun]
    _ = .next (s.afterError .badCommand 0x02) := State.finish_quiet _ hq

end Sys2Proof.Machine
end

section
/-! PROOFS. The encoding's obligations (spec/30_encoding.md), and SET_DEBUG (R134). -/

namespace Sys2Proof.Machine

/-- Settles O1, constructor by constructor: an offset's access or an OP's command is the one it was encoded from. -/
theorem decodeOfEncodeIsIdentity : Obligations.DecodeOfEncodeIsIdentity :=
  decode_encode

/-- Settles O2: a word is its fields, and a command's ARG is its operands once its reserved bits are 0. -/
theorem encodeOfDecodeKeepsEveryBit : Obligations.EncodeOfDecodeKeepsEveryBit :=
  ⟨encode_decodeCmd, encode_decodeBus_write, encode_decodeBus_read⟩

/-- Settles O3: every transaction has a row and the rows are pairwise apart; a command word has at most its OP's row. -/
theorem wordsMatchTheRowsOfTheTable : Obligations.WordsMatchTheRowsOfTheTable :=
  ⟨busRowsOf_decodeBus, Laws.EncodingRow.busRows_mask, cmdRowsOf_cases⟩

/-- Settles O4: the words are those of the four kinds of OP, and in a quiet state the settle adds nothing. -/
theorem reservedEncodingsAreThoseListed : Obligations.ReservedEncodingsAreThoseListed :=
  ⟨fun w => ⟨decodeCmd_eq_error_iff w, raisesBadCommand_of_reserved⟩, ⟨rfl, State.finish_quiet⟩,
    fun s _ _ hq => ⟨s.answer_quiet 0x00 hq, s.finish_quiet hq⟩⟩

/-- Settles O5 by decoding the nineteen words. -/
theorem specWordsDecodeAsWritten : Obligations.SpecWordsDecodeAsWritten := by
  unfold Obligations.SpecWordsDecodeAsWritten
  decide

/-- Settles O31: its reserved words are the last kind of R66's list. -/
theorem setDebugWritesDebug : Obligations.SetDebugWritesDebug :=
  ⟨rfl, rfl,
    fun w hop harg =>
      raisesBadCommand_of_reserved ((decodeCmd_eq_error_iff w).mpr (.inr (.inr (.inr ⟨hop, harg⟩)))),
    fun s d hq => (s.runSetDebug d).finish_quiet hq⟩

end Sys2Proof.Machine
end

section
/-! SUPPORT. One turn of the host whose next operation is a transaction at a register's offset (spec/00_scope.md R11,
spec/20_memory.md R42). -/

namespace Sys2Proof.Machine

theorem State.hostTurns_succ {s t u : State} {n : Nat} (h : s.hostTurns n = some t) (ht : t.hostTurn = .next u) :
    s.hostTurns (n + 1) = some u := by
  simp only [State.hostTurns, h, ht]

/-- The turn of an operation with a transaction: the transaction, and then the host's own code (R11). -/
theorem State.hostTurn_transacts {s : State} {op : HostOp} {rest : List HostOp} {c : Params → BusCycle}
    (ho : s.thread.ops = op :: rest) (hk : op.check = none) (hc : ∀ p, op.cycle p = some (c p)) :
    s.hostTurn = thenHost (s.dropOp.transact (c s.dropOp.params)) op.after := by
  rw [s.hostTurn_busy op rest ho]
  simp only [State.runHostOp, hk, hc]

theorem State.hostTurn_regRead {s : State} {op : HostOp} {rest : List HostOp} {off : Offset}
    (ho : s.thread.ops = op :: rest) (hk : op.check = none) (hc : ∀ p, op.cycle p = some (regRead p off)) :
    s.hostTurn = thenHost (exec (decodeRead off) s.dropOp) op.after := by
  rw [State.hostTurn_transacts ho hk hc, State.transact_regRead]

theorem State.hostTurn_regWrite {s : State} {op : HostOp} {rest : List HostOp} {off : Offset} {d : Byte}
    (ho : s.thread.ops = op :: rest) (hk : op.check = none) (hc : ∀ p, op.cycle p = some (regWrite p off d)) :
    s.hostTurn = thenHost (exec (decodeWrite off d) s.dropOp) op.after := by
  rw [State.hostTurn_transacts ho hk hc, State.transact_regWrite]

/-- A plain write at a register's address is the write its offset selects (R42, R72). -/
theorem State.hostTurn_write {s : State} {rest : List HostOp} {addr : Nat} {off : Offset} {d : Byte}
    (ho : s.thread.ops = .write addr d :: rest) (ha : addr = s.params.base + off.toNat) :
    s.hostTurn = exec (decodeWrite off d) s.dropOp := by
  have hop : HostOp.write addr d = busOp s.dropOp.params (busWord true off d) := by simp [busOp, ha]
  rw [s.hostTurn_busy _ rest ho, hop, State.runHostOp_busOp, decodeBus_busWord, if_pos rfl]

/-- A read changes the byte of the host's thread only: the settle leaves the host alone (R71). -/
theorem State.answer_thread {s t : State} {d : Byte} (h : s.answer d = .next t) :
    t.thread = { s.thread with data := d } := by
  cases h
  rw [State.thread_congr (State.settle_frame _).host, State.returnByte_thread]

theorem State.quiet_dropOp {s : State} (h : s.Quiet) : s.dropOp.Quiet := (s.firePending_mapThread _).trans h

end Sys2Proof.Machine
end

section
/-! PROOFS. The pseudo-instructions of R69 when nothing falls between their transactions. -/

namespace Sys2Proof.Machine

/-! ### `cmd` -/

/-- `cmd w` first stages its low byte (R84), and has the write of its high byte next. -/
theorem State.hostTurn_cmd {s : State} {w : Half} {rest : List HostOp} (hq : s.Quiet)
    (ho : s.thread.ops = .cmd w :: rest) :
    ∃ t, s.hostTurn = .next t ∧ t.cmdLo = lowByte w ∧ t.params = s.params
      ∧ t.thread.ops = .write (s.params.base + 0x09) (highByte w) :: rest := by
  let u : State := { s.dropOp with cmdLo := lowByte w }
  have hx : exec (decodeWrite 0x08 (lowByte w)) s.dropOp = .next u := State.finish_quiet _ (State.quiet_dropOp hq)
  have hu : u.thread = s.dropOp.thread := State.thread_congr rfl
  refine ⟨u.pushOps [.write (u.params.base + 0x09) (highByte w)], ?_, ?_, ?_, ?_⟩
  · rw [State.hostTurn_regWrite ho rfl fun _ => rfl, hx]
    rfl
  · simp [u]
  · simp [u]
  · rw [State.pushOps_thread, hu, State.dropOp_thread, ho, State.dropOp_params]
    rfl

/-- Settles O58: the first turn, and the write it leaves as the next operation. -/
theorem cmdPseudoWritesLowThenHigh : Obligations.CmdPseudoWritesLowThenHigh := by
  intro s w rest _ hq ho
  have hhi : BitVec.ofNat 8 (w.toNat / 256) = highByte w :=
    BitVec.eq_of_toNat_eq (by rw [highByte_toNat, BitVec.toNat_ofNat]; have := w.isLt; omega)
  obtain ⟨t, ht, hlo, hp, hops⟩ := State.hostTurn_cmd hq ho
  rw [hhi]
  exact ⟨t, State.hostTurns_succ rfl ht, hlo ▸ lowByte_toNat w, hops,
    State.hostTurn_write (off := 0x09) hops (hp ▸ rfl)⟩

/-! ### `rd16` and `rdraster` -/

/-- `op` reads the byte at `off` and goes on as `opHi` with it, which reads the byte after that and yields the two
joined (R69). -/
structure HostOp.ReadsPair (op : HostOp) (opHi : Byte → HostOp) (off : Offset) (join : Byte → Byte → Half) :
    Prop where
  check : op.check = none
  cycle : ∀ p, op.cycle p = some (regRead p off)
  after : ∀ t, op.after t = t.pushOps [opHi t.thread.data]
  checkHi : ∀ lo, (opHi lo).check = none
  cycleHi : ∀ lo p, (opHi lo).cycle p = some (regRead p (off + 1))
  afterHi : ∀ lo t, (opHi lo).after t = t.yieldValue (join t.thread.data lo)

theorem readsPair_rd16 (off : Offset) : (HostOp.rd16 off).ReadsPair (.rd16Hi off) off (· ++ ·) := by
  constructor <;> intros <;> rfl

theorem readsPair_rdRaster :
    HostOp.rdRaster.ReadsPair .rdRasterHi 0x00 fun hi lo => (rasterOf hi lo).setWidth 16 := by
  constructor <;> intros <;> rfl

section
variable {lo hi : Instr} {low : State → Byte} {latch : HoldLatches → Byte} {value : State → Nat}
  {op : HostOp} {opHi : Byte → HostOp} {off : Offset} {join : Byte → Byte → Half} {s : State} {rest : List HostOp}
  (h : LatchedPair lo hi low latch value) (hop : op.ReadsPair opHi off join)
include h hop

/-- The first turn reads the live byte and loads the latch. -/
theorem LatchedPair.hostTurn_lo (hlo : decodeRead off = lo) (ho : s.thread.ops = op :: rest) :
    ∃ t, s.hostTurn = .next t ∧ t.thread.ops = opHi (low s.dropOp) :: rest ∧ t.hold = s.dropOp.latched lo := by
  obtain ⟨u, hu⟩ := exec_settles lo s.dropOp
  have hthread : u.settle.thread = { s.dropOp.thread with data := low s.dropOp } :=
    (State.answer_thread ((h.lo_answers _).symm.trans hu) :)
  refine ⟨u.settle.pushOps [opHi u.settle.thread.data], ?_, ?_, ?_⟩
  · rw [State.hostTurn_regRead ho hop.check hop.cycle, hlo, hu, thenHost, hop.after]
  · simp [hthread, ho]
  · rw [State.pushOps_hold, exec_hold lo hu]

/-- The second turn reads the latch and yields the value. -/
theorem LatchedPair.hostTurn_hi {d : Byte} (hhi : decodeRead (off + 1) = hi) (ho : s.thread.ops = opHi d :: rest) :
    ∃ t, s.hostTurn = .next t ∧ t.thread.ops = rest ∧ t.thread.value = join (latch s.hold) d := by
  obtain ⟨u, hu⟩ := exec_settles hi s.dropOp
  have hthread := State.answer_thread ((h.hi_answers _).symm.trans hu)
  refine ⟨u.settle.yieldValue (join u.settle.thread.data d), ?_, ?_, ?_⟩
  · rw [State.hostTurn_regRead ho (hop.checkHi d) (hop.cycleHi d), hhi, hu, thenHost, hop.afterHi]
  · simp [hthread, ho]
  · simp [hthread]

/-- The two turns together yield the pair's two bytes joined. -/
theorem LatchedPair.hostTurns (hlo : decodeRead off = lo) (hhi : decodeRead (off + 1) = hi)
    (ho : s.thread.ops = op :: rest) :
    ∃ t, s.hostTurns 2 = some t ∧ t.thread.ops = rest
      ∧ t.thread.value = join (latch (s.dropOp.latched lo)) (low s.dropOp) := by
  obtain ⟨t, ht, hops, hhold⟩ := h.hostTurn_lo hop hlo ho
  obtain ⟨u, hu, hrest, hval⟩ := h.hostTurn_hi hop hhi hops
  exact ⟨u, State.hostTurns_succ (State.hostTurns_succ rfl ht) hu, hrest, hhold ▸ hval⟩

end

/-- `rd16` yields the field of its pair whole (R50, R69). -/
theorem LatchedPair.rd16 {lo hi : Instr} {low : State → Byte} {latch : HoldLatches → Byte} {value : State → Nat}
    (h : LatchedPair lo hi low latch value) {s : State} {off : Offset} {rest : List HostOp} {v : Half}
    (hlo : decodeRead off = lo) (hhi : decodeRead (off + 1) = hi) (ho : s.thread.ops = .rd16 off :: rest)
    (hv : value s.dropOp = v.toNat) :
    ∃ t, s.hostTurns 2 = some t ∧ t.thread.ops = rest ∧ t.thread.value = v := by
  obtain ⟨t, ht, hrest, hval⟩ := h.hostTurns (readsPair_rd16 off) hlo hhi ho
  refine ⟨t, ht, hrest, BitVec.eq_of_toNat_eq ?_⟩
  have hsum := h.value_eq s.dropOp
  have hcat : (latch (s.dropOp.latched lo) ++ low s.dropOp).toNat
      = (latch (s.dropOp.latched lo)).toNat * 2 ^ 8 + (low s.dropOp).toNat := toNat_concat _ _
  rw [hval]
  omega

theorem rasterOf_bitByte (b : Bool) (d : Byte) : rasterOf (bitByte b) d = BitVec.ofBool b ++ d := by
  cases b <;> rfl

theorem lineHigh_append_lineLow (l : Line) : BitVec.ofBool (lineHigh l) ++ lineLow l = l := by
  apply BitVec.eq_of_toNat_eq
  have h : (BitVec.ofBool (lineHigh l) ++ lineLow l : Line).toNat
      = (BitVec.ofBool (lineHigh l)).toNat * 2 ^ 8 + (lineLow l).toNat := toNat_concat _ _
  rw [h, BitVec.toNat_ofBool, lineHigh_toNat, lineLow_toNat]
  omega

/-- `rdraster` yields the raster line (R50, R69). -/
theorem State.hostTurns_rdRaster {s : State} {rest : List HostOp} (ho : s.thread.ops = .rdRaster :: rest) :
    ∃ t, s.hostTurns 2 = some t ∧ t.thread.ops = rest ∧ t.thread.value.toNat = s.scu.raster.toNat := by
  obtain ⟨t, ht, hrest, hval⟩ := latchedPair_raster.hostTurns readsPair_rdRaster rfl rfl ho
  have hlatch : (s.dropOp.latched .rdRasterLo).raster = lineHigh s.scu.raster := by simp [State.latched]
  refine ⟨t, ht, hrest, ?_⟩
  rw [hval, hlatch, State.dropOp_scu, rasterOf_bitByte, lineHigh_append_lineLow,
    BitVec.toNat_setWidth_of_le (by decide)]

/-! ### `setcompare` -/

/-- `setbit`'s byte bit by bit (R111). -/
theorem bitSet_getLsbD (v : Byte) {b i : Nat} (e : Bool) (hb : b < 8) (hi : i < 8) :
    (bitSet v b e).getLsbD i = if i = b then e else v.getLsbD i := by
  have hone : (BitVec.ofNat 8 (2 ^ b)).getLsbD i = decide (b = i) := by
    rw [BitVec.getLsbD_ofNat, decide_eq_true hi, Bool.true_and, Nat.testBit_two_pow]
  have hzero : (BitVec.ofNat 8 (0xFF - 2 ^ b)).getLsbD i = !decide (b = i) := by
    have h := Nat.testBit_two_pow_sub_succ (Nat.pow_lt_pow_right (by decide : 1 < 2) hb) i
    rw [Nat.testBit_two_pow, decide_eq_true hi, Bool.true_and, Nat.sub_add_eq, Nat.sub_right_comm] at h
    rw [BitVec.getLsbD_ofNat, decide_eq_true hi, Bool.true_and]
    exact h
  cases e with
  | true => rw [bitSet, if_pos rfl, BitVec.getLsbD_or, hone]; grind
  | false => rw [bitSet, if_neg nofun, BitVec.getLsbD_and, hzero]; grind

theorem modeLineHigh_bitSet (v : Byte) (e : Bool) : modeLineHigh (bitSet v 7 e) = e :=
  bitSet_getLsbD v e (by decide) (by decide)

theorem modeRest_bitSet (v : Byte) (e : Bool) : modeRest (bitSet v 7 e) = modeRest v := by
  apply BitVec.eq_of_getLsbD_eq
  intro i hi
  have h := bitSet_getLsbD v e (b := 7) (i := i) (by decide) (by omega)
  simpa [modeRest, hi, Nat.ne_of_lt hi] using h

theorem modeRest_modeByte (c : Scu) : modeRest (modeByte c) = c.modeOther := by
  apply BitVec.eq_of_toNat_eq
  have := c.modeOther.isLt
  rw [modeRest_toNat, modeByte_toNat]
  omega

theorem withLineHigh_withLineLow (c l : Line) : withLineHigh (withLineLow c (lineLow l)) (lineHigh l) = l := by
  apply BitVec.eq_of_toNat_eq
  rw [withLineHigh_toNat, withLineLow_toNat, lineHigh_toNat, lineLow_toNat]
  omega

/-- `setcompare`, first turn: the low byte of the line (R76). -/
theorem State.hostTurn_setCompare {s : State} {l : Line} {rest : List HostOp} (hq : s.Quiet)
    (ho : s.thread.ops = .setCompare l :: rest) :
    ∃ t, s.hostTurn = .next t ∧ t.Quiet ∧ t.thread.ops = .setbit 0x03 7 (lineHigh l) :: rest
      ∧ t.scu = { s.scu with compare := withLineLow s.scu.compare (lineLow l) } := by
  let u : State :=
    { s.dropOp with scu := { s.dropOp.scu with compare := withLineLow s.dropOp.scu.compare (lineLow l) } }
  have huq : u.Quiet := State.quiet_dropOp hq
  have hu : u.thread = s.dropOp.thread := State.thread_congr rfl
  have hx : exec (decodeWrite 0x02 (lineLow l)) s.dropOp = .next u := State.finish_quiet _ huq
  refine ⟨u.pushOps [.setbit 0x03 7 (lineHigh l)], ?_, (u.firePending_mapThread _).trans huq, ?_, ?_⟩
  · rw [State.hostTurn_regWrite ho rfl fun _ => rfl, hx]
    rfl
  · rw [State.pushOps_thread, hu, State.dropOp_thread, ho]
    rfl
  · simp [u]

/-- Its second turn: the read of MODE (R77, R111). -/
theorem State.hostTurn_setbit {s : State} {e : Bool} {rest : List HostOp} (hq : s.Quiet)
    (ho : s.thread.ops = .setbit 0x03 7 e :: rest) :
    ∃ t, s.hostTurn = .next t ∧ t.Quiet
      ∧ t.thread.ops = .write (t.params.base + 0x03) (bitSet (modeByte s.scu) 7 e) :: rest ∧ t.scu = s.scu := by
  let u : State := s.dropOp.returnByte (modeByte s.dropOp.scu)
  have huq : u.Quiet := (s.dropOp.firePending_returnByte _).trans (State.quiet_dropOp hq)
  have hx : exec (decodeRead 0x03) s.dropOp = .next u := s.dropOp.answer_quiet _ (State.quiet_dropOp hq)
  refine ⟨u.pushOps [.write (u.params.base + 0x03) (bitSet u.thread.data 7 e)], ?_,
    (u.firePending_mapThread _).trans huq, ?_, ?_⟩
  · rw [State.hostTurn_regRead ho rfl fun _ => rfl, hx]
    rfl
  · simp [u, ho]
  · simp [u]

/-- Its third turn: the write of MODE (R78). -/
theorem State.hostTurn_writeMode {s : State} {d : Byte} {rest : List HostOp} (hq : s.Quiet)
    (ho : s.thread.ops = .write (s.params.base + 0x03) d :: rest) :
    ∃ t, s.hostTurn = .next t ∧ t.thread.ops = rest
      ∧ t.scu = { s.scu with
          compare := withLineHigh s.scu.compare (modeLineHigh d), modeOther := modeRest d } := by
  let u : State :=
    { s.dropOp with
      scu := { s.dropOp.scu with
        compare := withLineHigh s.dropOp.scu.compare (modeLineHigh d), modeOther := modeRest d } }
  have hu : u.thread = s.dropOp.thread := State.thread_congr rfl
  have hx : exec (decodeWrite 0x03 d) s.dropOp = .next u := State.finish_quiet _ (State.quiet_dropOp hq)
  refine ⟨u, (State.hostTurn_write ho rfl).trans hx, ?_, ?_⟩
  · rw [hu, State.dropOp_thread, ho]
    rfl
  · simp [u]

/-- The two writes of `setcompare` make up its line, and `setbit` writes MODE_OTHER back as it read it (R69). -/
theorem State.hostTurns_setCompare {s : State} {l : Line} {rest : List HostOp} (hq : s.Quiet)
    (ho : s.thread.ops = .setCompare l :: rest) :
    ∃ t, s.hostTurns 3 = some t ∧ t.thread.ops = rest ∧ t.scu = { s.scu with compare := l } := by
  obtain ⟨t, ht, htq, hto, hts⟩ := State.hostTurn_setCompare hq ho
  obtain ⟨u, hu, huq, huo, hus⟩ := State.hostTurn_setbit htq hto
  obtain ⟨v, hv, hvo, hvs⟩ := State.hostTurn_writeMode huq huo
  refine ⟨v, State.hostTurns_succ (State.hostTurns_succ (State.hostTurns_succ rfl ht) hu) hv, hvo, ?_⟩
  rw [hvs, modeLineHigh_bitSet, modeRest_bitSet, modeRest_modeByte, hus, hts, withLineHigh_withLineLow]

/-- Settles O59: `rd16` by the latched pair of each field, `rdraster` by the raster's, `setcompare` turn by turn. -/
theorem pairedAccessPseudosTakeEffect : Obligations.PairedAccessPseudosTakeEffect := by
  intro s rest hinv
  refine ⟨?_, State.hostTurns_rdRaster, fun l => State.hostTurns_setCompare hinv.quiet⟩
  intro off v hmem ho
  simp only [List.mem_cons, Prod.mk.injEq, List.not_mem_nil, or_false] at hmem
  obtain ⟨rfl, rfl⟩ | ⟨rfl, rfl⟩ | ⟨rfl, rfl⟩ | ⟨rfl, rfl⟩ | ⟨rfl, rfl⟩ | ⟨rfl, rfl⟩ := hmem
  · exact latchedPair_totalLines.rd16 rfl rfl ho (by simp)
  · exact latchedPair_measured.rd16 rfl rfl ho (by simp)
  · exact latchedPair_frameCounter.rd16 rfl rfl ho (by simp)
  · exact latchedPair_seconds.rd16 rfl rfl ho (by simp)
  · exact latchedPair_millis.rd16 rfl rfl ho (by simp)
  · exact latchedPair_drift.rd16 rfl rfl ho (by simp)

end Sys2Proof.Machine
end

section
/-! SUPPORT. What the register-access statements share (spec/40_register_access.md): a register's decoding by its offset,
the byte views told from the arithmetic the statements write, and the effects of the acknowledge and of a command word. -/

namespace Sys2Proof.Machine

/-! ### Decoding at an offset -/

theorem decodeBus_read (off : Offset) (d : Byte) : decodeBus (busWord false off d) = decodeRead off :=
  decodeBus_busWord false off d

theorem decodeBus_write (off : Offset) (d : Byte) : decodeBus (busWord true off d) = decodeWrite off d :=
  decodeBus_busWord true off d

/-- R92, R93: the two registers of entry k. -/
theorem decodeRead_stepEntry : ∀ k : StepIndex,
    decodeRead (BitVec.ofNat 6 (0x10 + 2 * k.toNat)) = .rdStepLo k
      ∧ decodeRead (BitVec.ofNat 6 (0x11 + 2 * k.toNat)) = .rdStepHi k := by decide

/-- R109's list. -/
theorem reservedOffset_of_mem : ∀ off : Offset,
    off ∈ [0x06, 0x07, 0x0F, 0x23, 0x28, 0x29, 0x2A, 0x2B, 0x2C, 0x2D, 0x2E, 0x2F, 0x38, 0x39, 0x3A, 0x3B, 0x3C, 0x3D,
      0x3E, 0x3F] → reservedOffset off = true := by decide

/-- R110's list. -/
theorem ignoredOffset_of_mem_or_le : ∀ off : Offset,
    off ∈ [0x00, 0x01, 0x06, 0x07] ∨ 0x0A ≤ off.toNat → ignoredOffset off = true := by decide

/-! ### The byte views told from their arithmetic -/

theorem ofNat_eq_of_toNat {n k : Nat} {v : BitVec n} (h : v.toNat = k) : BitVec.ofNat n k = v :=
  (BitVec.toNat_eq_nat.mp h).2.symm

theorem ite_eq_bitByte (b : Bool) : (if b = true then 1 else 0) = bitByte b := by cases b <;> rfl

theorem ofNat_eq_lowByte (v : Half) : BitVec.ofNat 8 (v.toNat % 256) = lowByte v :=
  ofNat_eq_of_toNat (lowByte_toNat v)

theorem ofNat_eq_highByte (v : Half) : BitVec.ofNat 8 (v.toNat / 256) = highByte v :=
  ofNat_eq_of_toNat (highByte_toNat v)

theorem ofNat_eq_lineLow (l : Line) : BitVec.ofNat 8 (l.toNat % 256) = lineLow l :=
  ofNat_eq_of_toNat (lineLow_toNat l)

theorem ofNat_eq_modeByte (c : Scu) :
    BitVec.ofNat 8 (c.compare.toNat / 256 * 128 + c.modeOther.toNat) = modeByte c :=
  ofNat_eq_of_toNat (modeByte_toNat c)

theorem ofNat_eq_indexByte (k : StepIndex) : BitVec.ofNat 8 k.toNat = indexByte k :=
  ofNat_eq_of_toNat (indexByte_toNat k)

theorem ofNat_eq_countByte (n : BitVec 4) : BitVec.ofNat 8 n.toNat = countByte n :=
  ofNat_eq_of_toNat (countByte_toNat n)

theorem ofNat_eq_stepHighByte (e : StepEntry) :
    BitVec.ofNat 8 (e.cbv.toNat * 128 + e.line.toNat / 256) = stepHighByte e :=
  ofNat_eq_of_toNat (stepHighByte_toNat e)

theorem ofNat_eq_withLineLow (l : Line) (d : Byte) :
    BitVec.ofNat 9 (l.toNat / 256 * 256 + d.toNat) = withLineLow l d :=
  ofNat_eq_of_toNat (withLineLow_toNat l d)

theorem modeLineHigh_toNat (d : Byte) : (modeLineHigh d).toNat = d.toNat / 128 := by
  have := d.isLt
  rw [modeLineHigh_iff]
  by_cases h : 128 ≤ d.toNat <;> simp only [h, decide_true, decide_false, Bool.toNat_true, Bool.toNat_false] <;> omega

theorem ofNat_eq_withLineHigh (l : Line) (d : Byte) :
    BitVec.ofNat 9 (d.toNat / 128 * 256 + l.toNat % 256) = withLineHigh l (modeLineHigh d) :=
  ofNat_eq_of_toNat (by rw [withLineHigh_toNat, modeLineHigh_toNat])

theorem ofNat_eq_modeRest (d : Byte) : BitVec.ofNat 7 (d.toNat % 128) = modeRest d :=
  ofNat_eq_of_toNat (modeRest_toNat d)

theorem ofNat_eq_commandWord (s : State) (d : Byte) :
    BitVec.ofNat 16 (256 * d.toNat + s.cmdLo.toNat) = s.commandWord d :=
  ofNat_eq_of_toNat (by rw [commandWord_toNat, Nat.mul_comm])

/-- `{v, b}` is `v * 2 + b` (R9). -/
theorem toNat_append_ofBool {n : Nat} (v : BitVec n) (b : Bool) :
    (v ++ BitVec.ofBool b).toNat = v.toNat * 2 + b.toNat := by
  rw [toNat_concat, BitVec.toNat_ofBool, Nat.pow_one]

/-- CB_PEND with its weight in STATUS (R44). -/
theorem State.ite_eq_callbackPending (s : State) :
    (if s.seq.seqState = .cbWait then 4 else 0) = 4 * s.callbackPending.toNat := by
  cases h : s.seq.seqState <;> simp [State.callbackPending, h]

/-- STATUS by the weights of its bits (R44). -/
theorem State.ofNat_eq_statusByte (s : State) :
    BitVec.ofNat 8
        (s.seq.enabled.toNat + 2 * (s.seq.debug).toNat + (if s.seq.seqState = .cbWait then 4 else 0)
          + 8 * s.det.detecting.toNat + 16 * s.metrics.valid.toNat + 32 * s.err.flag.toNat + 64 * s.seq.vecSlot.toNat)
      = s.statusByte := by
  apply ofNat_eq_of_toNat
  simp only [State.statusByte, toNat_append_ofBool]
  rw [s.ite_eq_callbackPending, BitVec.toNat_ofNat]
  omega

/-! ### The acknowledge -/

theorem State.quiet_of_rst {s : State} (h : s.scu.rst = false) : s.Quiet := by
  simp [State.Quiet, State.firePending, h]

theorem State.acknowledge_idle (s : State) (h : s.seq.seqState = .idle) :
    s.acknowledge = { s with scu := { s.scu with rst := false } } := by
  simp only [State.acknowledge, h]

theorem State.acknowledge_cbWait (s : State) (h : s.seq.seqState = .cbWait) : s.acknowledge = s.endRequest := by
  simp only [State.acknowledge, h]
  rfl

theorem State.acknowledge_rst (s : State) : s.acknowledge.scu.rst = false := by
  cases h : s.seq.seqState with
  | idle => rw [s.acknowledge_idle h]
  | cbWait => rw [s.acknowledge_cbWait h]; rfl

/-- A write of IRQ_STATUS with bit 0 set is the acknowledge: with RST = 0 the settle adds nothing (R80, R125). -/
theorem exec_wrIrqStatus_set (s : State) {d : Byte} (h : d.toNat % 2 = 1) :
    exec (.wrIrqStatus d) s = .next s.acknowledge := by
  have hb : lowBit d = true := by simp [lowBit_iff, h]
  calc exec (.wrIrqStatus d) s = (if lowBit d then s.acknowledge else s).finish := rfl
    _ = s.acknowledge.finish := by rw [if_pos hb]
    _ = .next s.acknowledge := State.finish_quiet _ (State.quiet_of_rst s.acknowledge_rst)

theorem exec_wrIrqStatus_clear (s : State) {d : Byte} (h : d.toNat % 2 = 0) : exec (.wrIrqStatus d) s = s.finish := by
  have hb : lowBit d ≠ true := by simp [lowBit_iff, h]
  calc exec (.wrIrqStatus d) s = (if lowBit d then s.acknowledge else s).finish := rfl
    _ = s.finish := by rw [if_neg hb]

/-! ### The settle -/

/-- A pending fire is performed at the end of the transaction (R125). -/
theorem State.finish_pending (s : State) (h : s.firePending = true) : s.finish = .next s.seqFire := by
  rw [s.finish_next, State.settle, if_pos h]

/-! ### Command words -/

/-- The instruction a command word decodes to is a command of R64 (R66). -/
theorem exec_of_decodeCmd {w : Half} {i : Instr} (h : decodeCmd w = .ok i) (s : State) :
    exec i s = (s.runCommand i).finish := by
  have he := encode_decodeCmd w i h
  cases i with
  | nop | detect | enable | disable | addStep | setDebug | softWrap => rfl
  | _ => nomatch he -- a bus transaction is encoded as a bus word

theorem State.runWord_of_decodeCmd {w : Half} {i : Instr} (h : decodeCmd w = .ok i) (s : State) :
    s.runWord w = s.runCommand i := by
  simp only [State.runWord, h]

theorem highByte_commandWord (s : State) (d : Byte) : highByte (s.commandWord d) = d := by
  apply BitVec.eq_of_toNat_eq
  rw [highByte_toNat, commandWord_toNat]
  omega

theorem lowByte_commandWord (s : State) (d : Byte) : lowByte (s.commandWord d) = s.cmdLo := by
  apply BitVec.eq_of_toNat_eq
  rw [lowByte_toNat, commandWord_toNat]
  omega

/-- No command writes CMD_LO (R86). -/
theorem State.runCommand_cmdLo (s : State) (c : Instr) : (s.runCommand c).cmdLo = s.cmdLo := by
  cases c
  case detect => simp only [State.runCommand, State.runDetect]; split <;> rfl
  case enable => simp only [State.runCommand, State.runEnable]; split <;> rfl
  case addStep =>
    simp only [State.runCommand, State.runAddStep]
    split
    · split <;> rfl
    · rfl
  case softWrap =>
    simp only [State.runCommand, State.runSoftWrap]
    split
    · rfl
    · split <;> rfl
  all_goals rfl

end Sys2Proof.Machine
end

section
/-! PROOFS. The register accesses (spec/40_register_access.md sections 2 to 6): each read is the end of a transaction in a
quiet state with the register's byte view, each write the end of one with the fields it sets. -/

namespace Sys2Proof.Machine

/-! ### Reads -/

/-- Settles O14, read by read. -/
theorem scanlineReadsReturnTheirRegisters : Obligations.ScanlineReadsReturnTheirRegisters := by
  refine ⟨fun d => by simp only [decodeBus_read]; decide, fun s hq => ?_⟩
  simp only [← lineHigh_iff, ite_eq_bitByte, ofNat_eq_lineLow, ofNat_eq_modeByte]
  exact ⟨State.answer_quiet _ _ hq, s.answer_quiet _ hq, s.answer_quiet _ hq, s.answer_quiet _ hq, s.answer_quiet _ hq,
    s.answer_quiet _ hq⟩

/-- Settles O15, read by read; STATUS is its bits' weighted sum. -/
theorem commandAndStatusReadsReturnTheirRegisters : Obligations.CommandAndStatusReadsReturnTheirRegisters := by
  refine ⟨fun d => by simp only [decodeBus_read]; decide, fun s hq => ?_⟩
  rw [s.ofNat_eq_statusByte, ofNat_eq_indexByte, ofNat_eq_countByte, ofNat_eq_indexByte]
  exact ⟨s.answer_quiet _ hq, s.answer_quiet _ hq, s.answer_quiet _ hq, s.answer_quiet _ hq, s.answer_quiet _ hq,
    s.answer_quiet _ hq, s.answer_quiet _ hq⟩

/-- Settles O16. -/
theorem stepTableReadsReturnTheirEntry : Obligations.StepTableReadsReturnTheirEntry := by
  intro k
  refine ⟨fun d => by simpa only [decodeBus_read] using decodeRead_stepEntry k, fun s hq => ?_⟩
  rw [ofNat_eq_lineLow, ofNat_eq_stepHighByte]
  exact ⟨s.answer_quiet _ hq, s.answer_quiet _ hq⟩

/-- Settles O17, read by read. -/
theorem metricsReadsReturnTheirRegisters : Obligations.MetricsReadsReturnTheirRegisters := by
  refine ⟨fun d => by simp only [decodeBus_read]; decide, fun s hq => ?_⟩
  simp only [ite_eq_bitByte, ofNat_eq_lowByte, ofNat_eq_highByte]
  exact ⟨s.answer_quiet _ hq, s.answer_quiet _ hq, s.answer_quiet _ hq, State.answer_quiet _ _ hq, s.answer_quiet _ hq,
    State.answer_quiet _ _ hq, s.answer_quiet _ hq⟩

/-- Settles O18, read by read. -/
theorem clockReadsReturnTheirRegisters : Obligations.ClockReadsReturnTheirRegisters := by
  refine ⟨fun d => by simp only [decodeBus_read]; decide, fun s hq => ?_⟩
  simp only [ofNat_eq_lowByte, ofNat_eq_highByte]
  exact ⟨State.answer_quiet _ _ hq, s.answer_quiet _ hq, State.answer_quiet _ _ hq, s.answer_quiet _ hq,
    State.answer_quiet _ _ hq, s.answer_quiet _ hq, State.answer_quiet _ _ hq, s.answer_quiet _ hq⟩

/-- Settles O19: the two lists are those of the reserved and of the ignored offsets. -/
theorem reservedReadsAreZeroAndIgnoredWritesDoNothing : Obligations.ReservedReadsAreZeroAndIgnoredWritesDoNothing := by
  refine ⟨fun off d => ⟨fun h => ?_, fun h => ?_⟩, fun s _ _ hq => ⟨s.answer_quiet _ hq, s.finish_quiet hq⟩⟩
  · rw [decodeBus_read, decodeRead_reserved off (reservedOffset_of_mem off h)]
  · rw [decodeBus_write, decodeWrite_ignored off d (ignoredOffset_of_mem_or_le off h)]

/-! ### Writes -/

/-- Settles O21: no fire becomes pending, whatever the line. -/
theorem compareWritesSetTheirBits : Obligations.CompareWritesSetTheirBits := by
  refine fun d => ⟨decodeBus_write 0x02 d, decodeBus_write 0x03 d, fun s hq => ?_⟩
  rw [ofNat_eq_withLineLow, ofNat_eq_withLineHigh, ofNat_eq_modeRest]
  exact ⟨State.finish_quiet _ hq, State.finish_quiet _ hq⟩

/-- Settles O22, by the two branches of the acknowledge. -/
theorem acknowledgeClearsTheLatchAndEndsTheRequest : Obligations.AcknowledgeClearsTheLatchAndEndsTheRequest := by
  refine fun s d => ⟨decodeBus_write 0x04 d, fun hd hq => ?_, fun hd hs => ?_, fun hd hs => ?_⟩
  · exact (exec_wrIrqStatus_clear s hd).trans (s.finish_quiet hq)
  · rw [exec_wrIrqStatus_set s hd, s.acknowledge_idle hs]
  · rw [exec_wrIrqStatus_set s hd, s.acknowledge_cbWait hs]
    rfl

/-- Settles O23: the condition is firePending of the state with the new IRQ_EN_RST. -/
theorem enableWriteSetsBitZeroAndMayFire : Obligations.EnableWriteSetsBitZeroAndMayFire := by
  intro s d u
  have hx : exec (.wrIrqEn d) s = u.finish := by
    unfold u
    rw [← lowBit_iff]
    rfl
  have hp : u.firePending = true ↔ d.toNat % 2 = 1 ∧ s.seq.enabled = true ∧ s.scu.rst = true
      ∧ s.seq.seqState = .idle ∧ s.det.detecting = false := by
    rw [u.firePending_iff, and_left_comm]
    simp only [u, decide_eq_true_eq]
  refine ⟨decodeBus_write 0x05 d, fun h => ?_, fun h => ?_, fun he hd => ?_⟩
  · rw [hx, u.finish_pending (hp.mpr h)]
  · rw [hx, u.finish_quiet (Bool.eq_false_iff.mpr (mt hp.mp h))]
  · simp [State.irqOut, u, he, hd]

/-- Settles O24. -/
theorem cmdLoWriteStagesTheByte : Obligations.CmdLoWriteStagesTheByte :=
  fun _ d hq => ⟨decodeBus_write 0x08 d, State.finish_quiet _ hq⟩

/-- Settles O25: the command and the write end with the same settle, and neither it nor the command writes CMD_LO. -/
theorem cmdHiWriteExecutesTheStagedWord : Obligations.CmdHiWriteExecutesTheStagedWord := by
  intro s d
  rw [ofNat_eq_commandWord]
  refine ⟨decodeBus_write 0x09 d, fun i hi => ⟨_, exec_of_decodeCmd hi s, ?_, ?_⟩, fun e he hq => ?_⟩
  · exact congrArg State.finish (State.runWord_of_decodeCmd hi s)
  · exact (State.settle_frame _).cmdLo.trans (s.runCommand_cmdLo i)
  · have h := raisesBadCommand_of_reserved ⟨e, he⟩ s hq (lowByte_commandWord s d).symm
    rwa [highByte_commandWord] at h

end Sys2Proof.Machine
end

section
/-! PROOFS. `setbit` and `getbit` (spec/40_register_access.md R111, R112): the fault above bit 7, and otherwise the read of
the register with the host's own computation after it. -/

namespace Sys2Proof.Machine

theorem State.runHostOp_fault (s : State) {op : HostOp} {f : Fault} (h : op.check = some f) :
    s.runHostOp op = .fault f := by
  simp only [State.runHostOp, h]

/-- An operation that reads a register is the read its offset selects, and then the host's own code (R11, R42). -/
theorem State.runHostOp_regRead {s t : State} {op : HostOp} {off : Offset} (hk : op.check = none)
    (hc : ∀ p, op.cycle p = some (regRead p off)) (ht : exec (decodeRead off) s = .next t) :
    s.runHostOp op = .next (op.after t) := by
  simp only [State.runHostOp, hk, hc, State.transact_regRead, ht, thenHost]

/-- Settles O56: the write that follows the read holds the byte of `bitSet`. -/
theorem setbitReadsThenWritesOneBit : Obligations.SetbitReadsThenWritesOneBit := by
  refine fun s off b e _ => ⟨fun hb => s.runHostOp_fault (if_pos hb), fun hb => ?_⟩
  obtain ⟨u, ht⟩ := exec_settles (decodeRead off) s
  have hp : u.settle.params = s.params := (transactionsLeaveTheBeamAndTheHostAlone s _ _ ht).2.1
  refine ⟨u.settle, bitSet u.settle.thread.data b e, ht, ?_, fun j hj => ?_⟩
  · rw [State.runHostOp_regRead (op := .setbit off b e) (if_neg (by omega)) (fun _ => rfl) ht, ← hp]
    rfl
  · exact bitSet_getLsbD _ e (by omega) hj

/-- Settles O57: the host's code after the read changes its thread alone. -/
theorem getbitReadsOneBit : Obligations.GetbitReadsOneBit := by
  refine fun s off b _ => ⟨fun hb => s.runHostOp_fault (if_pos hb), fun hb => ?_⟩
  obtain ⟨u, ht⟩ := exec_settles (decodeRead off) s
  have hop := State.runHostOp_regRead (op := .getbit off b) (if_neg (by omega)) (fun _ => rfl) ht
  exact ⟨u.settle, _, ht, hop, congrArg HostThread.bit (u.settle.yieldBit_thread _), (HostOp.after_frame _ _).block⟩

end Sys2Proof.Machine
end

section
/-! SUPPORT. The timing detector, said once (spec/41_timing_detector.md): the branches of DETECT, of the sample and of
the classification (R113, R114, R118), and what an instruction and a beam step leave of DETECTING, the metrics and the
Fire events (R117, R119). -/

namespace Sys2Proof.Machine

/-! ### DETECT -/

theorem State.runDetect_ignored (s : State) (h : s.metrics.valid = true ∨ s.det.detecting = true) : s.runDetect = s :=
  if_pos (by simpa using h)

theorem State.runDetect_starts (s : State) (hv : s.metrics.valid = false) (hd : s.det.detecting = false) :
    s.runDetect = { s with det := { detecting := true, prev := s.scu.raster } } :=
  if_neg (by simp [hv, hd])

/-! ### The sample and the classification -/

theorem State.detSample_follows (s : State) (hd : s.det.detecting = true)
    (hle : s.det.prev.toNat ≤ s.scu.raster.toNat) :
    s.detSample = { s with det := { detecting := true, prev := s.scu.raster } } := by
  simp only [State.detSample, hd, if_true, if_neg (Nat.not_lt.mpr hle)]

theorem State.detSample_ends (s : State) (hd : s.det.detecting = true) (hlt : s.scu.raster.toNat < s.det.prev.toNat) :
    s.detSample
      = { s with metrics := classified (measuredCount s.det.prev), det := { s.det with detecting := false } } := by
  rw [State.detSample, if_pos hd, if_pos hlt]

/-- The sample writes the metrics only where it ends a measurement (R119). -/
theorem State.detSample_metrics (s : State) :
    s.detSample.metrics = s.metrics ∨ (s.det.detecting = true ∧ s.detSample.det.detecting = false) := by
  cases hd : s.det.detecting with
  | false => exact .inl (by rw [s.detSample_idle hd])
  | true =>
    obtain hlt | hle := Nat.lt_or_ge s.scu.raster.toNat s.det.prev.toNat
    · exact .inr ⟨rfl, by rw [s.detSample_ends hd hlt]⟩
    · exact .inl (by rw [s.detSample_follows hd hle])

/-- The sum of R114 does not leave 16 bits. -/
theorem measuredCount_toNat (prev : Line) : (measuredCount prev).toNat = prev.toNat + 1 := by
  have h1 : (1 : Half).toNat = 1 := rfl
  rw [measuredCount, BitVec.toNat_add, BitVec.toNat_setWidth, h1]
  omega

theorem ofNat_eq_measuredCount (prev : Line) : BitVec.ofNat 16 (prev.toNat + 1) = measuredCount prev :=
  ofNat_eq_of_toNat (measuredCount_toNat prev)

theorem classified_regionA (m : Half) (h : 300 < m.toNat) :
    classified m = { valid := true, regionA := true, fps := 50, mspf := 20, totalLines := 312, measured := m } :=
  if_pos h

theorem classified_regionB (m : Half) (h : m.toNat ≤ 300) :
    classified m = { valid := true, regionA := false, fps := 60, mspf := 16, totalLines := 262, measured := m } :=
  if_neg (Nat.not_lt.mpr h)

theorem classified_measured (m : Half) : (classified m).measured = m := by
  unfold classified
  split <;> rfl

theorem classified_region (m : Half) : (classified m).regionA = decide (300 < m.toNat) := by
  obtain h | h := Nat.lt_or_ge 300 m.toNat
  · rw [classified_regionA m h, decide_eq_true h]
  · rw [classified_regionB m h, decide_eq_false (Nat.not_lt.mpr h)]

/-! ### Instructions -/

/-- Only DETECT starts a measurement, and no instruction ends one (R113). -/
theorem State.Effect.det {s u : State} {i : Instr} (he : s.Effect i u) :
    u.det = s.det ∨ (s.metrics.valid = false ∧ s.det.detecting = false) := by
  cases he with
  | read i hold d => exact .inl (by simp)
  | detect i hv hd => exact .inr ⟨hv, hd⟩
  | nothing | stage | compareLo | mode | irqEn | clearRst | endRequest | enable | disable | append | setDebug | wrap
  | error => exact .inl rfl

/-- No instruction writes the metrics (R119). -/
theorem State.Effect.metrics {s u : State} {i : Instr} (he : s.Effect i u) : u.metrics = s.metrics := by
  cases he with
  | read i hold d => simp
  | nothing | stage | compareLo | mode | irqEn | clearRst | endRequest | detect | enable | disable | append | setDebug
  | wrap | error => rfl

theorem exec_metrics (i : Instr) {s t : State} (he : exec i s = .next t) : t.metrics = s.metrics := by
  obtain ⟨u, hu, rfl⟩ := exec_effect i s t he
  exact u.settle_frame.metrics.trans hu.metrics

/-- Once a measurement runs or has completed, no instruction touches the detector (R113). -/
theorem exec_det (i : Instr) {s t : State} (he : exec i s = .next t)
    (h : s.metrics.valid = true ∨ s.det.detecting = true) : t.det = s.det := by
  obtain ⟨u, hu, rfl⟩ := exec_effect i s t he
  obtain hd | ⟨hv, hd⟩ := hu.det
  · exact u.settle_frame.det.trans hd
  · simp [hv, hd] at h

/-- What fires is a settle: no instruction's own effect emits a Fire event (R125). -/
theorem State.Effect.fires {s u : State} {i : Instr} (he : s.Effect i u) : fires u.trace = fires s.trace := by
  cases he with
  | read i hold d => simp
  | enable i hv => simp [State.startScheduler, Machine.fires]
  | endRequest i hs => simp [State.endRequest, Machine.fires]
  | wrap i he hv => simp [State.wrap, Machine.fires]
  | error i e => simp [State.raiseError, Machine.fires]
  | nothing | stage | compareLo | mode | irqEn | clearRst | detect | disable | append | setDebug => rfl

/-! ### The beam step -/

@[simp] theorem State.compareMatch_raster (s : State) : s.compareMatch.scu.raster = s.scu.raster := by
  unfold State.compareMatch; split <;> rfl

theorem State.compareMatch_fires (s : State) : fires s.compareMatch.trace = fires s.trace := by
  unfold State.compareMatch
  split
  · simp [fires]
  · rfl

theorem State.compareMatch_rst (s : State) (h : s.scu.raster = s.scu.compare) : s.compareMatch.scu.rst = true := by
  rw [State.compareMatch, if_pos h]
  rfl

/-- Below P_HW_LINES ≤ 512 the advance narrows nothing (R8, R123). -/
theorem State.advanceRaster_raster_toNat {s : State} (h : s.Inv) :
    s.advanceRaster.scu.raster.toNat = (s.scu.raster.toNat + 1) % s.params.hwLines := by
  obtain ⟨h2, h512⟩ := h.params_valid.2.1
  have hlt := Nat.mod_lt (s.scu.raster.toNat + 1) (by omega : 0 < s.params.hwLines)
  rw [State.advanceRaster_scu, BitVec.toNat_ofNat]
  omega

/-- With the scheduler disabled a beam step has nothing to settle (R124). -/
theorem State.beamStep_disabled (s : State) (h : s.seq.enabled = false) :
    s.beamStep = s.advanceRaster.compareMatch.detSample :=
  State.settle_quiet _ (by simp [State.Quiet, State.firePending, h])

/-- A beam step writes the metrics only where it ends a measurement (R119). -/
theorem State.beamStep_metrics (s : State) :
    s.beamStep.metrics = s.metrics ∨ (s.det.detecting = true ∧ s.beamStep.det.detecting = false) := by
  have hf := s.advanceRaster.compareMatch.detSample.settle_frame
  rw [State.beamStep, hf.metrics, hf.det]
  simpa using s.advanceRaster.compareMatch.detSample_metrics

end Sys2Proof.Machine
end

section
/-! PROOFS. The timing detector's own rules (R113, R114, R118), and the two rules about every step: R117 and R119. -/

namespace Sys2Proof.Machine

/-- Settles O27: the started measurement itself keeps any fire from being pending. -/
theorem detectStartsTheMeasurementOnce : Obligations.DetectStartsTheMeasurementOnce := by
  refine ⟨rfl, fun w hop harg => ?_, fun s hq h => ?_, fun s hv hd => ?_⟩
  · exact raisesBadCommand_of_reserved ((decodeCmd_eq_error_iff w).mpr (.inr (.inl ⟨.inl (by omega), harg⟩)))
  · exact (congrArg State.finish (s.runDetect_ignored h)).trans (s.finish_quiet hq)
  · refine (congrArg State.finish (s.runDetect_starts hv hd)).trans (State.finish_quiet _ ?_)
    simp [State.Quiet, State.firePending]

/-- Settles O39, branch by branch of the sample and of the classification. -/
theorem detectorSampleMeasuresAtTheRollover : Obligations.DetectorSampleMeasuresAtTheRollover := by
  intro s
  rw [ofNat_eq_measuredCount, ← measuredCount_toNat]
  refine ⟨s.detSample_idle, s.detSample_follows, fun hd hlt hm => ?_, fun hd hlt hm => ?_⟩
  · rw [s.detSample_ends hd hlt, classified_regionA _ hm]
  · rw [s.detSample_ends hd hlt, classified_regionB _ hm]

/-- Settles O41: a running measurement finds the scheduler disabled, and goes on through every instruction, so nothing
settles. -/
theorem detectionMasksTheInterruptAndTheSequencer : Obligations.DetectionMasksTheInterruptAndTheSequencer := by
  intro s h hd
  obtain ⟨-, hoff⟩ := h.detecting_alone hd
  refine ⟨if_pos hd, h.quiet, ?_, fun hm => ?_, fun i t he => ?_⟩
  · rw [s.beamStep_disabled hoff, State.detSample_trace, State.compareMatch_fires, State.advanceRaster_trace]
  · rw [s.beamStep_disabled hoff, State.detSample_scu]
    exact State.compareMatch_rst _ (ofNat_eq_of_toNat hm.symm)
  · have ht : t.det.detecting = true := by rw [exec_det i he (.inr hd), hd]
    have hoff' := ((exec_inv i h he).detecting_alone ht).2
    refine ⟨?_, hoff', if_pos ht⟩
    obtain ⟨u, hu, rfl⟩ := exec_effect i s t he
    have hq : u.Quiet := by
      simp [State.Quiet, State.firePending, ← u.settle_frame.enabled, hoff']
    rw [u.settle_quiet hq, hu.fires]

/-- The metrics stand, or the step ends the measurement that had not completed (R119). -/
def State.MetricsStep (s t : State) : Prop :=
  t.metrics = s.metrics ∨ (s.metrics.valid = false ∧ s.det.detecting = true ∧ t.det.detecting = false)

theorem State.Moves.metricsStep {s t : State} (h : s.Inv) (hm : s.Moves t) : s.MetricsStep t := by
  cases hm with
  | nothing | callback => exact .inl rfl
  | beam => exact s.beamStep_metrics.imp_right fun ⟨hd, ht⟩ => ⟨(h.detecting_alone hd).1, hd, ht⟩
  | exec i t he => exact .inl (exec_metrics i he)

/-- Settles O42, by the one move of the step. -/
theorem metricsAreWrittenOnce : Obligations.MetricsAreWrittenOnce := by
  intro s t h hstep
  obtain ⟨u, v, hsu, huv, hvt⟩ := step_moves s t hstep
  have hc : s.MetricsStep t := by
    have := huv.metricsStep (h.of_sameButHost hsu)
    rwa [State.MetricsStep, hsu.block.metrics, hsu.block.det, ← hvt.block.metrics, ← hvt.block.det] at this
  exact ⟨fun hv => hc.resolve_right fun ⟨hv', _⟩ => absurd (hv.symm.trans hv') nofun, hc.resolve_left⟩

end Sys2Proof.Machine
end

section
/-! PROOFS. A measurement takes the beam steps to the next rollover and counts the frame's lines (R115, R116, R121), in
every order of steps and in every weakly fair run (R178). -/

namespace Sys2Proof.Machine

/-! ### The beam steps a measurement has left -/

/-- A measurement has completed with the count `m`, which decides the region (R118). -/
structure State.Measured (s : State) (m : Nat) : Prop where
  detecting : s.det.detecting = false
  valid : s.metrics.valid = true
  measured : s.metrics.measured.toNat = m
  regionA : s.metrics.regionA = decide (300 < m)

/-- A measurement of a frame of `lines` lines ends in `n` beam steps: with none it is over, and until then DET_PREV is
RASTER and `n` lines are left to the rollover (R115, R116). -/
inductive State.StepsLeft (s : State) (lines : Nat) : Nat → Prop
  | ended (h : s.Measured lines) : s.StepsLeft lines 0
  | running (n : Nat) (hd : s.det.detecting = true) (hprev : s.det.prev = s.scu.raster)
    (hlines : s.params.hwLines = lines) (hn : s.scu.raster.toNat + n = lines) : s.StepsLeft lines n

section
variable {s t : State} {lines n : Nat}

theorem State.Measured.congr (h : s.Measured lines) (hd : t.det = s.det) (hm : t.metrics = s.metrics) :
    t.Measured lines := by
  obtain ⟨hdet, hvalid, hcount, hregion⟩ := h
  constructor
  · rwa [hd]
  all_goals rwa [hm]

theorem State.StepsLeft.congr (h : s.StepsLeft lines n) (hd : t.det = s.det) (hm : t.metrics = s.metrics)
    (hp : t.params = s.params) (hr : t.scu.raster = s.scu.raster) : t.StepsLeft lines n := by
  cases h with
  | ended h => exact .ended (h.congr hd hm)
  | running n hdet hprev hlines hn => exact .running n (hd ▸ hdet) (by rw [hd, hr, hprev]) (hp ▸ hlines) (hr ▸ hn)

theorem State.StepsLeft.of_sameButHost (h : s.StepsLeft lines n) (k : s.SameButHost t) : t.StepsLeft lines n :=
  h.congr k.block.det k.block.metrics k.block.params (by rw [k.block.scu])

theorem State.StepsLeft.detecting_of_pos (h : s.StepsLeft lines n) (hn : 0 < n) : s.det.detecting = true := by
  cases h with
  | ended => exact absurd hn (Nat.lt_irrefl 0)
  | running n hd => exact hd

/-- With no beam step left the measurement is over: RASTER is below P_HW_LINES. -/
theorem State.StepsLeft.measured (h : s.StepsLeft lines 0) (hi : s.Inv) : s.Measured lines := by
  cases h with
  | ended h => exact h
  | running _ _ _ hlines hn => exact absurd hi.raster_lt (by omega)

theorem State.StepsLeft.valid_or_detecting (h : s.StepsLeft lines n) :
    s.metrics.valid = true ∨ s.det.detecting = true := by
  cases h with
  | ended h => exact .inl h.valid
  | running n hd => exact .inr hd

/-- Whatever the host does, the measurement goes on (R115). -/
theorem State.StepsLeft.exec {i : Instr} (h : s.StepsLeft lines n) (he : exec i s = .next t) : t.StepsLeft lines n := by
  obtain ⟨hraster, hparams, -⟩ := transactionsLeaveTheBeamAndTheHostAlone s t i he
  exact h.congr (exec_det i he h.valid_or_detecting) (exec_metrics i he) hparams hraster

theorem State.measured_of_rollover (hd : s.det.detecting = true) (hlt : s.scu.raster.toNat < s.det.prev.toNat) :
    s.detSample.Measured (s.det.prev.toNat + 1) := by
  rw [s.detSample_ends hd hlt, ← measuredCount_toNat]
  exact ⟨rfl, (classified_known _).1, congrArg BitVec.toNat (classified_measured _), classified_region _⟩

/-- A beam step takes one off what is left: the advance to the next line, which the sample stores, or the rollover to
line 0, at which DET_PREV is the frame's last line (R114). -/
theorem State.StepsLeft.beamStep (h : s.StepsLeft lines n) (hi : s.Inv) : s.beamStep.StepsLeft lines (n - 1) := by
  have hf := s.advanceRaster.compareMatch.detSample.settle_frame
  refine State.StepsLeft.congr ?_ hf.det hf.metrics hf.params hf.raster
  cases h with
  | ended hm =>
    rw [State.detSample_idle _ (by simpa using hm.detecting)]
    exact .ended (hm.congr (by simp) (by simp))
  | running n hd hprev hlines hn =>
    have hd' : s.advanceRaster.compareMatch.det.detecting = true := by simpa using hd
    have hp' : s.advanceRaster.compareMatch.det.prev.toNat = s.scu.raster.toNat := by simp [hprev]
    have hr' : s.advanceRaster.compareMatch.scu.raster.toNat = (s.scu.raster.toNat + 1) % lines := by
      rw [State.compareMatch_raster, State.advanceRaster_raster_toNat hi, hlines]
    have hlt := hi.raster_lt
    obtain ⟨h2, -⟩ := hi.params_valid.2.1
    obtain rfl | hmore : n = 1 ∨ 1 < n := by omega
    · rw [hn, Nat.mod_self] at hr'
      have hm := State.measured_of_rollover hd' (by omega)
      rw [hp', hn] at hm
      exact .ended hm
    · rw [Nat.mod_eq_of_lt (by omega)] at hr'
      rw [State.detSample_follows _ hd' (by omega)]
      exact .running _ rfl rfl (by simpa using hlines) (by rw [hr']; omega)

/-! ### Runs of the block -/

theorem State.blockStep_some {i : Instr} (he : Machine.exec i s = .next t) : s.blockStep (some i) = t := by
  simp only [State.blockStep, he]

theorem State.StepsLeft.blockRun (os : List (Option Instr)) (h : s.StepsLeft lines n) (hi : s.Inv) :
    (s.blockRun os).Inv ∧ (s.blockRun os).StepsLeft lines (n - os.count none) := by
  induction os generalizing s n with
  | nil => exact ⟨hi, h⟩
  | cons o os ih =>
    cases o with
    | none =>
      have := ih (h.beamStep hi) (State.beamStep_inv hi)
      rwa [Nat.sub_sub, Nat.add_comm, ← List.count_cons_self] at this
    | some i =>
      obtain ⟨u, he⟩ := exec_settles i s
      rw [State.blockRun, State.blockStep_some he, List.count_cons_of_ne (by simp)]
      exact ih (h.exec he) (exec_inv i hi he)

/-! ### Weakly fair runs -/

/-- In the invariant, with at most `n` beam steps left. -/
def State.Within (s : State) (lines n : Nat) : Prop := s.Inv ∧ ∃ k ≤ n, s.StepsLeft lines k

theorem State.Within.of_sameButHost (h : s.Within lines n) (k : s.SameButHost t) : t.Within lines n := by
  obtain ⟨hi, m, hm, hl⟩ := h
  exact ⟨hi.of_sameButHost k, m, hm, hl.of_sameButHost k⟩

theorem State.Within.beamStep (h : s.Within lines n) : s.beamStep.Within lines (n - 1) := by
  obtain ⟨hi, m, hm, hl⟩ := h
  exact ⟨State.beamStep_inv hi, m - 1, Nat.sub_le_sub_right hm 1, hl.beamStep hi⟩

theorem State.Within.mono {k : Nat} (h : s.Within lines n) (hk : n ≤ k) : s.Within lines k := by
  obtain ⟨hi, m, hm, hl⟩ := h
  exact ⟨hi, m, hm.trans hk, hl⟩

theorem State.Within.moves (h : s.Within lines n) (hm : s.Moves t) : t.Within lines n := by
  obtain ⟨hi, k, hk, hl⟩ := h
  cases hm with
  | nothing => exact ⟨hi, k, hk, hl⟩
  | beam => exact State.Within.mono (State.Within.beamStep ⟨hi, k, hk, hl⟩) (Nat.sub_le n 1)
  | exec i t he => exact ⟨exec_inv i hi he, k, hk, hl.exec he⟩
  | callback c => exact ⟨(State.Moves.callback c).inv hi, k, hk, hl.congr rfl rfl rfl rfl⟩

theorem State.Within.step (h : s.Within lines n) (hs : Machine.step s = .next t) : t.Within lines n := by
  obtain ⟨u, v, hsu, huv, hvt⟩ := step_moves s t hs
  exact ((h.of_sameButHost hsu).moves huv).of_sameButHost hvt

theorem State.GoesOn.sameButHost {u : State} (h : s.GoesOn u) : s.SameButHost u := by
  have hr := h.rest
  refine ⟨?_, by rw [hr], fun hm hc => ?_⟩
  · constructor <;> rw [hr]
  · rw [hr] at hc ⊢
    exact hm hc

end

section
variable {σ : Nat → Turn} {r : Nat → State} {lines n k : Nat}

/-- No step of a run adds to what is left. -/
theorem ScheduledRun.within_succ (h : ScheduledRun σ r) (hw : (r k).Within lines n) : (r (k + 1)).Within lines n := by
  obtain ⟨u, hu, hs⟩ := h k
  exact ((hw.of_sameButHost hu.sameButHost).of_sameButHost (u.sameButHost_withTurns _)).step hs

/-- The beam's steps of a run each take one off. -/
theorem ScheduledRun.within_beam (h : ScheduledRun σ r) (hb : σ k = .beam) (hw : (r k).Within lines n) :
    (r (k + 1)).Within lines (n - 1) := by
  obtain ⟨u, hu, hs⟩ := h k
  have hwu := hw.of_sameButHost hu.sameButHost
  rw [hb, step_turn { u with turns := [.beam] } .beam [] hwu.1.params_valid rfl] at hs
  rw [← Host.Outcome.next.inj hs]
  exact (hwu.of_sameButHost (u.sameButHost_withTurns [])).beamStep

theorem ScheduledRun.within_of_le (h : ScheduledRun σ r) (hw : (r k).Within lines n) {m : Nat} (hm : k ≤ m) :
    (r m).Within lines n := by
  induction m, hm using Nat.le_induction with
  | base => exact hw
  | succ m _ ih => exact h.within_succ ih

/-- R178: the beam always has a step, so a fair run takes as many as are left. -/
theorem ScheduledRun.completes (h : ScheduledRun σ r) (hfair : WeaklyFair σ r) (hw : (r k).Within lines n) :
    ∃ m, (r m).Within lines 0 := by
  induction n generalizing k with
  | zero => exact ⟨k, hw⟩
  | succ n ih =>
    obtain ⟨m, hm, hb⟩ := hfair .beam k fun _ _ => rfl
    exact ih (h.within_beam hb (h.within_of_le hw hm))

end

/-! ### A measurement from its start -/

/-- A measurement that DETECT has just started has the beam steps from RASTER to the rollover left (R116). -/
theorem stepsLeft_of_detect {s u : State} (hv : s.metrics.valid = false) (hd : s.det.detecting = false)
    (hi : s.Inv) (he : exec .detect s = .next u) :
    u.StepsLeft s.params.hwLines (s.params.hwLines - s.scu.raster.toNat) := by
  obtain ⟨-, -, -, hstart⟩ := detectStartsTheMeasurementOnce
  rw [hstart s hv hd] at he
  cases he
  exact .running _ rfl rfl rfl (Nat.add_sub_cancel' hi.raster_lt.le)

/-- Settles O40: what is left falls by one with each beam step and by nothing else. -/
theorem detectionMeasuresTheFrameInTime : Obligations.DetectionMeasuresTheFrameInTime := by
  intro s u os hi hv hd he
  have hu : u.Inv := exec_inv _ hi he
  have hl := stepsLeft_of_detect hv hd hi he
  obtain ⟨hrun, hleft⟩ := hl.blockRun os hu
  refine ⟨fun hlt => ?_, fun hle => ?_, fun σ r h0 hr hfair => ?_⟩
  · have hdet := hleft.detecting_of_pos (Nat.sub_pos_of_lt hlt)
    exact ⟨hdet, (hrun.detecting_alone hdet).1⟩
  · rw [Nat.sub_eq_zero_of_le hle] at hleft
    obtain ⟨hdet, hvalid, hcount, hregion⟩ := hleft.measured hrun
    exact ⟨hdet, hvalid, hcount, hregion, hrun.metrics_known hvalid⟩
  · have hw : (r 0).Within s.params.hwLines (s.params.hwLines - s.scu.raster.toNat) :=
      h0 ▸ ⟨hu, _, le_rfl, hl⟩
    obtain ⟨n, hn, k, hk, hl'⟩ := hr.completes hfair hw
    obtain rfl := Nat.le_zero.mp hk
    have hm := hl'.measured hn
    exact ⟨n, hm.detecting, hm.valid, hm.measured⟩

end Sys2Proof.Machine
end

section
/-! SUPPORT. The sequencer and the beam step, an equation per outcome (spec/42_scheduler.md R123–R128): what a fire does as
a whole state, when a beam step fires, and that a settle leaves nothing pending. -/

namespace Sys2Proof.Machine

/-! ### What a fire does -/

theorem State.seqFire_single (s : State) (h : s.seq.stepCount.toNat < 2) : s.seqFire = s.fireSingle := if_pos h

theorem State.seqFire_multi (s : State) (h : 2 ≤ s.seq.stepCount.toNat) : s.seqFire = s.fireMulti :=
  if_neg (Nat.not_lt.mpr h)

/-- FIRE_SINGLE without a callback: fire, WRAP, own acknowledge (R127). -/
theorem State.seqFire_single_selfAck (s : State)
    (h : s.seq.stepCount = 0 ∨ (s.seq.stepCount = 1 ∧ (s.stepAt 0).cbv = false)) :
    s.seqFire
      = { s with
          clock := s.clock.wrapped s.metrics
          scu := { s.scu with rst := false }
          trace := s.trace ++ [.fire (if s.seq.stepCount = 1 then some 0 else none),
            .wrap (s.clock.frameCounter + 1), .selfAck] } := by
  have hlt : s.seq.stepCount.toNat < 2 := by
    obtain h | ⟨h, -⟩ := h <;> simp [h]
  rw [s.seqFire_single hlt]
  obtain ⟨h1, hc, -⟩ | ⟨h1, -, hf⟩ | ⟨h1, hf⟩ := s.fireSingle_cases
  · obtain h0 | ⟨-, hc'⟩ := h
    · simp [h0] at h1
    · exact nomatch hc'.symm.trans hc
  · rw [hf, if_pos h1]
    simp [State.wrap, State.emit, State.selfAck]
  · rw [hf, if_neg h1]
    simp [State.wrap, State.emit, State.selfAck]

/-- FIRE_SINGLE with a callback: the WRAP comes before the request (R127). -/
theorem State.seqFire_single_request (s : State) (h1 : s.seq.stepCount = 1) (hc : (s.stepAt 0).cbv = true) :
    s.seqFire
      = { s with
          clock := s.clock.wrapped s.metrics
          seq := { s.seq with cbStep := 0, seqState := .cbWait }
          trace := s.trace ++ [.fire (some 0), .wrap (s.clock.frameCounter + 1), .cbRequest 0] } := by
  rw [s.seqFire_single (by simp [h1])]
  obtain ⟨-, -, hf⟩ | ⟨-, hc', -⟩ | ⟨h1', -⟩ := s.fireSingle_cases
  · rw [hf]
    simp [State.wrap, State.emit, State.requestCallback]
  · exact nomatch hc'.symm.trans hc
  · exact absurd h1 h1'

/-- The clock after FIRE_MULTI's re-arm: one WRAP when the index returns to 0 (R128). -/
def State.rearmedClock (s : State) : FrameClock :=
  if s.nextIndex = 0 then s.clock.wrapped s.metrics else s.clock

/-- The Wrap event of FIRE_MULTI, if there is one (R128). -/
def State.rearmedWraps (s : State) : List Event :=
  if s.nextIndex = 0 then [.wrap s.rearmedClock.frameCounter] else []

theorem State.rearmed_eq (s : State) :
    s.rearmed
      = { s with
          clock := s.rearmedClock
          seq := { s.seq with curIndex := s.nextIndex }
          scu := { s.scu with compare := (s.stepAt s.nextIndex).line }
          trace := s.trace ++ [.fire (some s.seq.curIndex)] ++ s.rearmedWraps } := by
  unfold State.rearmed State.rearmedWraps State.rearmedClock
  by_cases hn : s.nextIndex = 0
  · simp only [if_pos hn]
    rfl
  · simp only [if_neg hn, List.append_nil]
    rfl

/-- FIRE_MULTI of a step with a callback: the re-arm and the WRAP come before the request (R128). -/
theorem State.seqFire_multi_request (s : State) (hn : 2 ≤ s.seq.stepCount.toNat)
    (hc : (s.stepAt s.seq.curIndex).cbv = true) :
    s.seqFire
      = { s with
          clock := s.rearmedClock
          seq := { s.seq with curIndex := s.nextIndex, cbStep := s.seq.curIndex, seqState := .cbWait }
          scu := { s.scu with compare := (s.stepAt s.nextIndex).line }
          trace := s.trace ++ [.fire (some s.seq.curIndex)] ++ s.rearmedWraps ++ [.cbRequest s.seq.curIndex] } := by
  rw [s.seqFire_multi hn]
  obtain ⟨-, hf⟩ | ⟨hc', -⟩ := s.fireMulti_cases
  · rw [hf, s.rearmed_eq]
    rfl
  · exact nomatch hc'.symm.trans hc

/-- FIRE_MULTI of a step without a callback (R128). -/
theorem State.seqFire_multi_selfAck (s : State) (hn : 2 ≤ s.seq.stepCount.toNat)
    (hc : (s.stepAt s.seq.curIndex).cbv = false) :
    s.seqFire
      = { s with
          clock := s.rearmedClock
          seq := { s.seq with curIndex := s.nextIndex }
          scu := { s.scu with compare := (s.stepAt s.nextIndex).line, rst := false }
          trace := s.trace ++ [.fire (some s.seq.curIndex)] ++ s.rearmedWraps ++ [.selfAck] } := by
  rw [s.seqFire_multi hn]
  obtain ⟨hc', -⟩ | ⟨-, hf⟩ := s.fireMulti_cases
  · exact nomatch hc'.symm.trans hc
  · rw [hf, s.rearmed_eq]
    rfl

/-! ### The Fire events of a fire -/

theorem fires_append (tr es : List Event) : fires (tr ++ es) = fires tr ++ fires es := List.filterMap_append

theorem State.fires_rearmedWraps (s : State) : fires s.rearmedWraps = [] := by
  unfold State.rearmedWraps
  split <;> rfl

/-- A fire emits one Fire event (R126). -/
theorem State.seqFire_fires (s : State) : ∃ k, fires s.seqFire.trace = fires s.trace ++ [k] := by
  obtain hn | hn := Nat.lt_or_ge s.seq.stepCount.toNat 2
  · rw [s.seqFire_single hn]
    obtain ⟨_, _, hf⟩ | ⟨_, _, hf⟩ | ⟨_, hf⟩ := s.fireSingle_cases <;> rw [hf]
    · exact ⟨some 0, by simp [State.wrap, fires]⟩
    · exact ⟨some 0, by simp [State.wrap, fires]⟩
    · exact ⟨none, by simp [State.wrap, fires]⟩
  · refine ⟨some s.seq.curIndex, ?_⟩
    cases hc : (s.stepAt s.seq.curIndex).cbv with
    | false => rw [s.seqFire_multi_selfAck hn hc, fires_append, fires_append, s.fires_rearmedWraps]; simp [fires]
    | true => rw [s.seqFire_multi_request hn hc, fires_append, fires_append, s.fires_rearmedWraps]; simp [fires]

/-! ### The settle leaves nothing pending -/

/-- A fire requests a callback or clears RST, so none is pending after it (R125). -/
theorem State.seqFire_is_quiet (s : State) : s.seqFire.Quiet := by
  obtain ⟨hs, -⟩ | ⟨-, hr⟩ := s.seqFire_outcome
  · simp [State.Quiet, State.firePending, hs]
  · exact State.quiet_of_rst hr

theorem State.settle_is_quiet (s : State) : s.settle.Quiet := by
  obtain ⟨_, hs⟩ | ⟨hq, hs⟩ := s.settle_cases <;> rw [hs]
  · exact s.seqFire_is_quiet
  · exact hq

theorem State.Quiet.of_sameButHost {s t : State} (h : s.Quiet) (k : s.SameButHost t) : t.Quiet :=
  (State.firePending_congr s t k.block.seq k.block.scu k.block.det).trans h

/-! ### Commands make nothing pending -/

/-- Of the commands ENABLE alone sets bits that a pending fire needs, and it clears RST (R124, R131). -/
theorem State.runCommand_quiet (s : State) (hq : s.Quiet) (c : Instr) : (s.runCommand c).Quiet := by
  cases c
  case detect =>
    simp only [State.runCommand, State.runDetect]
    split
    · exact hq
    · simp [State.Quiet, State.firePending]
  case enable =>
    simp only [State.runCommand, State.runEnable]
    split
    · exact State.quiet_of_rst rfl
    · exact hq
  case disable => rfl
  case addStep =>
    simp only [State.runCommand, State.runAddStep]
    split
    · split <;> exact hq
    · exact hq
  case softWrap =>
    simp only [State.runCommand, State.runSoftWrap]
    split
    · exact hq
    · split <;> exact hq
  all_goals exact hq

theorem State.runWord_quiet (s : State) (hq : s.Quiet) (w : Half) : (s.runWord w).Quiet := by
  unfold State.runWord
  split
  · exact s.runCommand_quiet hq _
  · exact hq

/-! ### The beam step -/

/-- The state of a compare match: RST = 1 and Match (R123). -/
def State.matched (s : State) : State :=
  { s with scu := { s.scu with rst := true }, trace := s.trace ++ [.matched s.scu.raster] }

/-- A match while RST is still 1 only emits Match (R123, R129). -/
theorem State.matched_of_rst (s : State) (h : s.scu.rst = true) : s.matched = s.emit (.matched s.scu.raster) := by
  rw [State.matched, ← h]
  rfl

theorem State.compareMatch_hit (s : State) (h : s.scu.raster = s.scu.compare) : s.compareMatch = s.matched :=
  if_pos h

theorem State.compareMatch_missed (s : State) (h : s.scu.raster ≠ s.scu.compare) : s.compareMatch = s := if_neg h

/-- A measurement runs only while the scheduler is disabled (R40 item 3). -/
theorem State.Inv.not_detecting {s : State} (h : s.Inv) (he : s.seq.enabled = true) : s.det.detecting = false :=
  h.measured_not_detecting (h.enabled_valid he)

/-- The sample makes no fire pending and takes none away: it acts only while the scheduler is disabled (R124). -/
theorem State.firePending_detSample {s : State} (h : s.seq.enabled = true → s.det.detecting = false) :
    s.detSample.firePending = s.firePending := by
  cases he : s.seq.enabled with
  | true => rw [s.detSample_idle (h he)]
  | false => simp [State.firePending, he]

section
variable {s : State} (h : s.Inv)
include h

/-- The settle of a beam step finds pending what its compare test has left pending. -/
theorem State.firePending_beamSample :
    s.advanceRaster.compareMatch.detSample.firePending = s.advanceRaster.compareMatch.firePending :=
  State.firePending_detSample fun he => by simpa using h.not_detecting (by simpa using he)

theorem State.beamStep_missed (hr : s.advanceRaster.scu.raster ≠ s.scu.compare) :
    s.beamStep = s.advanceRaster.detSample := by
  have hq := State.firePending_beamSample h
  rw [State.beamStep]
  rw [State.compareMatch_missed _ hr] at hq ⊢
  exact State.settle_quiet _ (hq.trans h.quiet)

theorem State.beamStep_fires (hr : s.advanceRaster.scu.raster = s.scu.compare) (he : s.seq.enabled = true)
    (hirq : s.scu.irqEnRst = true) (hidle : s.seq.seqState = .idle) :
    s.beamStep = s.advanceRaster.matched.detSample.seqFire := by
  have hp := State.firePending_beamSample h
  have hm : s.advanceRaster.matched.firePending = true :=
    (State.firePending_iff _).mpr ⟨he, hirq, rfl, hidle, h.not_detecting he⟩
  rw [State.beamStep]
  rw [State.compareMatch_hit _ hr] at hp ⊢
  rw [State.settle, if_pos (hp.trans hm)]

theorem State.beamStep_unserved (hr : s.advanceRaster.scu.raster = s.scu.compare)
    (hno : s.seq.enabled = false ∨ s.scu.irqEnRst = false ∨ s.seq.seqState = .cbWait) :
    s.beamStep = s.advanceRaster.matched.detSample := by
  have hp := State.firePending_beamSample h
  have hm : s.advanceRaster.matched.firePending = false := by
    rw [Bool.eq_false_iff, ne_eq, State.firePending_iff]
    rintro ⟨he, hirq, -, hidle, -⟩
    obtain hn | hn | hn := hno
    · exact nomatch hn.symm.trans he
    · exact nomatch hn.symm.trans hirq
    · exact nomatch hn.symm.trans hidle
  rw [State.beamStep]
  rw [State.compareMatch_hit _ hr] at hp ⊢
  exact State.settle_quiet _ (hp.trans hm)

end

end Sys2Proof.Machine
end

section
/-! PROOFS. The sequencer and the beam step (spec/42_scheduler.md R123–R129). -/

namespace Sys2Proof.Machine

/-- Settles O36: its three outcomes are FIRE_SINGLE's branches. -/
theorem fireSingleWrapsThenRequestsOrAcknowledges : Obligations.FireSingleWrapsThenRequestsOrAcknowledges := by
  refine fun s => ⟨fun h0 => ?_, fun h1 hc => ?_, s.seqFire_single_request⟩
  · rw [s.seqFire_single_selfAck (.inl h0), h0]
    rfl
  · rw [s.seqFire_single_selfAck (.inr ⟨h1, hc⟩), if_pos h1]
    rfl

/-- Settles O37: the re-arm, and then one of FIRE_MULTI's two ends. -/
theorem fireMultiRearmsThenWrapsThenRequestsOrAcknowledges :
    Obligations.FireMultiRearmsThenWrapsThenRequestsOrAcknowledges := by
  intro s hn hle nxt c wraps t
  have hnext : s.nextIndex.toNat = nxt := s.nextIndex_toNat hle hn
  have h0 : nxt = 0 ↔ s.nextIndex = 0 := by rw [← hnext]; exact BitVec.toNat_inj (y := 0#3)
  have hclock : c = s.rearmedClock := by simp only [c, h0, State.rearmedClock]
  have hwraps : wraps = s.rearmedWraps := by simp only [wraps, h0, hclock, State.rearmedWraps]
  obtain ⟨hlt, -⟩ | ⟨-, hcur, hcmp⟩ := s.seqFire_arming
  · omega
  · refine ⟨by rw [hcur, hnext], by rw [hcmp, hcur], fun hc => ?_, fun hc => ?_⟩
    · rw [hcur, hcmp, hclock, hwraps]
      exact s.seqFire_multi_request hn hc
    · rw [hcur, hcmp, hclock, hwraps]
      exact s.seqFire_multi_selfAck hn hc

/-- Settles O38: the compare test decides what is pending, whatever the sample does. -/
theorem beamStepAdvancesMatchesSamplesSettles : Obligations.BeamStepAdvancesMatchesSamplesSettles :=
  fun _ h => ⟨State.advanceRaster_raster_toNat h, State.beamStep_missed h, State.beamStep_fires h,
    State.beamStep_unserved h⟩

/-- Settles O43: in CB_WAIT nothing can fire and no measurement runs, and the acknowledge clears RST. -/
theorem matchDuringACallbackIsLost : Obligations.MatchDuringACallbackIsLost := by
  intro s h hw r
  obtain ⟨he, hrst⟩ := h.cbWait_served hw
  have hd := h.not_detecting he
  have hb : s.beamStep
      = { s with
          scu := { s.scu with raster := r }
          trace := s.trace ++ (if r = s.scu.compare then [.matched r] else []) } := by
    by_cases hr : r = s.scu.compare
    · rw [State.beamStep_unserved h hr (.inr (.inr hw)), s.advanceRaster.matched.detSample_idle hd,
        s.advanceRaster.matched_of_rst hrst, if_pos hr]
      rfl
    · rw [State.beamStep_missed h hr, s.advanceRaster.detSample_idle hd, if_neg hr, List.append_nil]
      rfl
  refine ⟨hb, _, exec_wrIrqStatus_set _ rfl, State.acknowledge_rst _, ?_⟩
  rw [hb, State.acknowledge_cbWait _ (by exact hw)]
  refine ⟨rfl, ?_, rfl⟩
  by_cases hr : r = s.scu.compare <;> simp [State.endRequest, hr, fires]

/-- In a quiet state an instruction other than a write of IRQ_EN makes nothing pending by its own effect (R125). -/
theorem exec_quiet_effect {s : State} (hq : s.Quiet) (i : Instr) (hi : ∀ d, i ≠ .wrIrqEn d) :
    ∃ u, s.Effect i u ∧ u.Quiet ∧ exec i s = .next u := by
  have hcmd (c : Instr) := s.runCommand_quiet hq c
  suffices h : ∃ u, s.Effect i u ∧ u.Quiet ∧ exec i s = .next u.settle by
    obtain ⟨u, hu, hu', he⟩ := h
    exact ⟨u, hu, hu', u.settle_quiet hu' ▸ he⟩
  cases i
  case wrIrqEn d => exact absurd rfl (hi d)
  case wrCompareLo d => exact ⟨_, .compareLo d, hq, rfl⟩
  case wrMode d => exact ⟨_, .mode d, hq, rfl⟩
  case wrIrqStatus d =>
    cases hb : lowBit d with
    | true =>
      exact ⟨_, s.acknowledge_effect _, State.quiet_of_rst s.acknowledge_rst, congrArg State.finish (if_pos hb)⟩
    | false => exact ⟨_, .nothing _, hq, congrArg State.finish (if_neg (by simp [hb]))⟩
  case wrCmdLo d => exact ⟨_, .stage _ d, hq, rfl⟩
  case wrCmdHi d => exact ⟨_, s.runWord_effect _ _, s.runWord_quiet hq _, rfl⟩
  case wrIgnored => exact ⟨_, .nothing _, hq, rfl⟩
  case nop => exact ⟨_, s.runCommand_effect _ .nop, hcmd _, rfl⟩
  case detect => exact ⟨_, s.runCommand_effect _ .detect, hcmd _, rfl⟩
  case enable => exact ⟨_, s.runCommand_effect _ .enable, hcmd _, rfl⟩
  case disable => exact ⟨_, s.runCommand_effect _ .disable, hcmd _, rfl⟩
  case addStep cbv line => exact ⟨_, s.runCommand_effect _ (.addStep cbv line), hcmd _, rfl⟩
  case setDebug d => exact ⟨_, s.runCommand_effect _ (.setDebug d), hcmd _, rfl⟩
  case softWrap => exact ⟨_, s.runCommand_effect _ .softWrap, hcmd _, rfl⟩
  all_goals
    refine ⟨_, .read _ _ _, ?_, rfl⟩
    exact (State.firePending_returnByte _ _).trans hq

/-- Settles O12: every transaction and every beam step ends with the settle, and the host's code makes nothing pending. -/
theorem noFireIsPendingBetweenSteps : Obligations.NoFireIsPendingBetweenSteps := by
  have hexec (s t : State) (i : Instr) (he : exec i s = .next t) : t.Quiet := by
    obtain ⟨u, -, rfl⟩ := exec_effect i s t he
    exact u.settle_is_quiet
  refine ⟨hexec, fun s => State.settle_is_quiet _, fun s t hq hstep => ?_⟩
  obtain ⟨u, v, hsu, huv, hvt⟩ := step_moves s t hstep
  have hv : v.Quiet := by
    cases huv with
    | nothing => exact hq.of_sameButHost hsu
    | beam => exact State.settle_is_quiet _
    | exec i v he => exact hexec u v i he
    | callback k => exact (hq.of_sameButHost hsu : u.Quiet)
  exact hv.of_sameButHost hvt

/-- Settles O13: but for the write of IRQ_EN no effect makes a fire pending, and a beam step fires only at a match. -/
theorem onlyAMatchOrAnEnableWriteFires : Obligations.OnlyAMatchOrAnEnableWriteFires := by
  refine ⟨fun s t i h he => ?_, fun s h => ?_⟩
  · by_cases hi : ∃ d, i = .wrIrqEn d
    · obtain ⟨d, rfl⟩ := hi
      obtain ⟨-, hfire, hno, -⟩ := enableWriteSetsBitZeroAndMayFire s d
      by_cases hc : d.toNat % 2 = 1 ∧ s.seq.enabled = true ∧ s.scu.rst = true ∧ s.seq.seqState = .idle
          ∧ s.det.detecting = false
      · obtain ⟨hd, hen, hrst, hidle, -⟩ := id hc
        cases he.symm.trans (hfire hc)
        exact .inr ⟨⟨d, rfl, hd⟩, hen, hidle, hrst, State.seqFire_fires _⟩
      · cases he.symm.trans (hno hc)
        exact .inl rfl
    · obtain ⟨u, hu, -, hx⟩ := exec_quiet_effect h.quiet i fun d hd => hi ⟨d, hd⟩
      cases he.symm.trans hx
      exact .inl hu.fires
  · by_cases hr : s.advanceRaster.scu.raster = s.scu.compare
    · have hm : fires s.advanceRaster.matched.detSample.trace = fires s.trace := by
        rw [State.detSample_trace]
        exact (fires_append _ _).trans (List.append_nil _)
      by_cases hp : s.seq.enabled = true ∧ s.scu.irqEnRst = true ∧ s.seq.seqState = .idle
      · obtain ⟨he, hirq, hidle⟩ := hp
        obtain ⟨k, hk⟩ := s.advanceRaster.matched.detSample.seqFire_fires
        rw [← State.advanceRaster_raster_toNat h, State.beamStep_fires h hr he hirq hidle]
        exact .inr ⟨congrArg _ hr, he, hidle, k, hk.trans (by rw [hm])⟩
      · have hno : s.seq.enabled = false ∨ s.scu.irqEnRst = false ∨ s.seq.seqState = .cbWait := by
          cases hs : s.seq.seqState with
          | idle => simpa [hs, imp_iff_not_or] using hp
          | cbWait => exact .inr (.inr rfl)
        exact .inl ((congrArg (fires ·.trace) (State.beamStep_unserved h hr hno)).trans hm)
    · rw [State.beamStep_missed h hr, State.detSample_trace]
      exact .inl rfl

end Sys2Proof.Machine
end

section
/-! PROOFS. The scheduler's commands (spec/42_scheduler.md section 4, R130–R133). -/

namespace Sys2Proof.Machine

/-- Set ARG bits of NOP, DETECT, ENABLE and DISABLE are reserved (R66). -/
theorem raisesBadCommand_of_arg {w : Half} (hop : w.toNat / 4096 ≤ 3) (harg : w.toNat % 4096 ≠ 0) :
    RaisesBadCommand w :=
  raisesBadCommand_of_reserved ((decodeCmd_eq_error_iff w).mpr (.inr (.inl ⟨.inl hop, harg⟩)))

/-- Settles O26. -/
theorem nopChangesNothing : Obligations.NopChangesNothing :=
  ⟨rfl, fun _ hop => raisesBadCommand_of_arg (by omega), State.finish_quiet⟩

/-- Settles O28: RST = 0 after ENABLE, so its settle adds nothing. -/
theorem enableArmsTheScheduler : Obligations.EnableArmsTheScheduler := by
  refine ⟨rfl, fun _ hop => raisesBadCommand_of_arg (by omega), fun s hv => ?_, fun s hv hq => ?_⟩
  · refine (congrArg State.finish (s.runEnable_valid hv)).trans ?_
    rw [State.finish_quiet _ (State.quiet_of_rst rfl)]
    simp [State.startScheduler, State.emit, State.firstLine]
  · exact (congrArg State.finish (if_neg (by simp [hv]))).trans (State.finish_quiet (s.raiseError .metricsInvalid) hq)

/-- Settles O29: disabled, the settle adds nothing. -/
theorem disableStopsTheScheduler : Obligations.DisableStopsTheScheduler :=
  ⟨rfl, fun _ hop => raisesBadCommand_of_arg (by omega), fun s => s.runDisable.finish_quiet rfl⟩

/-- ADD_STEP's word by its operands' weights (R64, R65). -/
theorem ofNat_eq_addStepWord (cbv : Bool) (line : Line) :
    BitVec.ofNat 16 (0x4000 + 0x800 * cbv.toNat + line.toNat) = cmdWord 0x4 (addStepArg cbv line) := by
  apply ofNat_eq_of_toNat
  have h4 : (0x4 : BitVec 4).toNat = 4 := rfl
  rw [cmdWord_toNat, addStepArg_toNat, h4]
  omega

/-- Nine bits hold the line a sentinel resolves to (R40 item 6, R65). -/
theorem State.endOfFrameLine_toNat {s : State} (h : s.Inv) (hv : s.metrics.valid = true) :
    s.endOfFrameLine.toNat = s.metrics.totalLines.toNat - s.params.bottomInvisible := by
  have hle : s.metrics.totalLines.toNat ≤ 312 := by
    obtain ⟨-, hl, -⟩ | ⟨-, hl, -⟩ := h.metrics_known hv <;> simp [hl]
  rw [State.endOfFrameLine, BitVec.toNat_ofNat]
  omega

/-- The line an ADD_STEP that is no error asks for (R133). -/
theorem State.requestedLine_some {s : State} (h : s.Inv) (line : Line) (hv : line = 0x1FF → s.metrics.valid = true) :
    ∃ l, s.requestedLine line = some l
      ∧ l.toNat = if line = 0x1FF then s.metrics.totalLines.toNat - s.params.bottomInvisible else line.toNat := by
  by_cases hs : line = 0x1FF
  · exact ⟨_, (if_pos hs).trans (if_pos (hv hs)), by rw [if_pos hs, State.endOfFrameLine_toNat h (hv hs)]⟩
  · exact ⟨_, if_neg hs, by rw [if_neg hs]⟩

/-- The sentinel cannot be resolved before a detection (R133). -/
theorem State.requestedLine_none (s : State) (hv : s.metrics.valid = false) : s.requestedLine 0x1FF = none :=
  (if_pos rfl).trans (if_neg (by simp [hv]))

theorem State.runAddStep_capped (s : State) (cbv : Bool) (line : Line) (hn : ¬ s.seq.stepCount.toNat < 8) :
    s.runAddStep cbv line = s := dif_neg hn

theorem State.runAddStep_error (s : State) (cbv : Bool) (line : Line) (hn : s.seq.stepCount.toNat < 8)
    (hl : s.requestedLine line = none) : s.runAddStep cbv line = s.raiseError .metricsInvalid := by
  simp only [State.runAddStep, dif_pos hn, hl]

theorem State.runAddStep_append (s : State) (cbv : Bool) {line l : Line} (hn : s.seq.stepCount.toNat < 8)
    (hl : s.requestedLine line = some l) : s.runAddStep cbv line = s.appendStep { line := l, cbv := cbv } hn := by
  simp only [State.runAddStep, dif_pos hn, hl]

/-- The table after an ADD_STEP, entry by entry (R133). -/
theorem State.appendStep_stepAt (s : State) (e : StepEntry) (hn : s.seq.stepCount.toNat < 8) (k : StepIndex) :
    (s.appendStep e hn).stepAt k = if k.toNat = s.seq.stepCount.toNat then e else s.stepAt k := by
  by_cases hk : k.toNat = s.seq.stepCount.toNat
  · rw [if_pos hk, s.appendStep_stepAt_new e hn k hk]
  · rw [if_neg hk]
    exact Vector.getElem_set_ne hn _ (Ne.symm hk)

/-- Settles O30: no case touches what firePending reads, so each is the effect alone. -/
theorem addStepAppendsOneEntry : Obligations.AddStepAppendsOneEntry := by
  refine ⟨fun cbv line => ?_, fun w hop harg => ?_, fun s cbv line h => ⟨fun h8 => ?_, fun hn hl hv => ?_,
    fun hn hv => ?_⟩⟩
  · rw [ofNat_eq_addStepWord, decodeCmd_addStep]
    simp [ifClear]
  · exact raisesBadCommand_of_reserved ((decodeCmd_eq_error_iff w).mpr (.inr (.inr (.inl ⟨hop, harg⟩))))
  · exact (congrArg State.finish (s.runAddStep_capped cbv line (by omega))).trans (s.finish_quiet h.quiet)
  · subst hl
    exact (congrArg State.finish (s.runAddStep_error cbv _ hn (s.requestedLine_none hv))).trans
      (State.finish_quiet (s.raiseError .metricsInvalid) h.quiet)
  · obtain ⟨l, hl, hnat⟩ := State.requestedLine_some h line hv
    refine ⟨s.appendStep { line := l, cbv := cbv } hn, l, ?_, hnat, s.appendStep_stepCount _ hn,
      s.appendStep_stepAt _ hn, rfl, rfl⟩
    exact (congrArg State.finish (s.runAddStep_append cbv hn hl)).trans (State.finish_quiet _ h.quiet)

end Sys2Proof.Machine
end

section
/-! PROOFS. One frame of beam steps (spec/42_scheduler.md R127, R128, R136, R138). A position counts lines on from line 0 of
the frame at hand, so that position p is on line p mod P_HW_LINES. Between two matches only RASTER moves; what each match
does is `State.serve`, whatever the positions. -/

namespace Sys2Proof.Machine

/-! ### Beam steps between two matches -/

theorem State.beamSteps_add (s : State) (m n : Nat) : s.beamSteps (m + n) = (s.beamSteps m).beamSteps n := by
  induction n with
  | zero => rfl
  | succ n ih => exact congrArg State.beamStep ih

theorem State.beamSteps_inv {s : State} (h : s.Inv) (n : Nat) : (s.beamSteps n).Inv := by
  induction n with
  | zero => exact h
  | succ n ih => exact State.beamStep_inv ih

/-- `s` with the beam at position `p`. -/
def State.onLine (s : State) (p : Nat) : State :=
  { s with scu := { s.scu with raster := BitVec.ofNat 9 (p % s.params.hwLines) } }

theorem State.onLine_congr (s : State) {p q : Nat} (h : p % s.params.hwLines = q % s.params.hwLines) :
    s.onLine p = s.onLine q := by
  rw [State.onLine, h]
  rfl

/-- Two positions less than a frame apart are on different lines. -/
theorem mod_ne_mod_of_lt {p a n : Nat} (h : p < a) (h' : a < p + n) : p % n ≠ a % n := by
  intro he
  have hdvd : n ∣ a - p := (Nat.modEq_iff_dvd' h.le).mp he
  have := Nat.le_of_dvd (by omega) hdvd
  omega

section
variable {s : State} (h : s.Inv)
include h

theorem State.onLine_raster : s.onLine s.scu.raster.toNat = s := by
  rw [State.onLine, Nat.mod_eq_of_lt h.raster_lt, BitVec.ofNat_toNat, BitVec.setWidth_eq]

theorem State.onLine_raster_toNat (p : Nat) : (s.onLine p).scu.raster.toNat = p % s.params.hwLines := by
  obtain ⟨h2, h512⟩ := h.params_valid.2.1
  have hlt := Nat.mod_lt p (by omega : 0 < s.params.hwLines)
  exact BitVec.toNat_ofNat _ _ |>.trans (Nat.mod_eq_of_lt (by omega))

/-- R123: the beam's own part of a beam step. -/
theorem State.advanceRaster_onLine (p : Nat) : (s.onLine p).advanceRaster = s.onLine (p + 1) := by
  have hr : ((s.onLine p).scu.raster.toNat + 1) % s.params.hwLines = (p + 1) % s.params.hwLines := by
    rw [State.onLine_raster_toNat h, Nat.mod_add_mod]
  exact congrArg (fun l => { s with scu := { s.scu with raster := BitVec.ofNat 9 l } }) hr

/-- Beam steps that reach no armed line only move the beam (R123). -/
theorem State.beamSteps_missed (hd : s.det.detecting = false) (d : Nat)
    (hmiss : ∀ j, 0 < j → j ≤ d → (s.scu.raster.toNat + j) % s.params.hwLines ≠ s.scu.compare.toNat) :
    s.beamSteps d = s.onLine (s.scu.raster.toNat + d) := by
  induction d with
  | zero => exact (State.onLine_raster h).symm
  | succ d ih =>
    have ht : s.beamSteps d = s.onLine (s.scu.raster.toNat + d) := ih fun j h0 hj => hmiss j h0 (by omega)
    have hi := State.beamSteps_inv h d
    rw [State.beamSteps]
    rw [ht] at hi ⊢
    have hadv := State.advanceRaster_onLine h (s.scu.raster.toNat + d)
    have hr : (s.onLine (s.scu.raster.toNat + d)).advanceRaster.scu.raster ≠ s.scu.compare := by
      intro hr
      apply hmiss (d + 1) (Nat.succ_pos d) le_rfl
      rw [← State.onLine_raster_toNat h, ← Nat.add_assoc, ← hadv, hr]
    rw [State.beamStep_missed hi hr, State.detSample_idle _ (by exact hd), hadv]
    rfl

end

/-! ### From match to match -/

/-- The beam reaches the armed line (R123). -/
def State.atMatch (s : State) : State := { s with scu := { s.scu with raster := s.scu.compare } : State }.matched

/-- What the next match does: it fires (R123, R126). -/
def State.serve (s : State) : State := s.atMatch.seqFire

/-- `s` after `k` matches. -/
def State.served (s : State) : Nat → State
  | 0 => s
  | k + 1 => (s.served k).serve

/-- The scheduler is ready to fire at the next match (R123, R124). -/
structure State.Ready (s : State) : Prop where
  inv : s.Inv
  enabled : s.seq.enabled = true
  irqEnRst : s.scu.irqEnRst = true
  idle : s.seq.seqState = .idle

/-- The beam steps up to the next match and its fire, wherever in the frame they begin. -/
theorem State.Ready.beamSteps {s : State} (h : s.Ready) {d : Nat} (h0 : 0 < d) (hd : d ≤ s.params.hwLines)
    (hl : (s.scu.raster.toNat + d) % s.params.hwLines = s.scu.compare.toNat) : s.beamSteps d = s.serve := by
  obtain ⟨d, rfl⟩ := Nat.exists_eq_succ_of_ne_zero h0.ne'
  have hdet := h.inv.not_detecting h.enabled
  have ht : s.beamSteps d = s.onLine (s.scu.raster.toNat + d) :=
    State.beamSteps_missed h.inv hdet d fun j hj hjd => hl ▸ mod_ne_mod_of_lt (by omega) (by omega)
  have hi := State.beamSteps_inv h.inv d
  rw [State.beamSteps]
  rw [ht] at hi ⊢
  have hadv := State.advanceRaster_onLine h.inv (s.scu.raster.toNat + d)
  have hr : (s.onLine (s.scu.raster.toNat + d + 1)).scu.raster = s.scu.compare :=
    BitVec.eq_of_toNat_eq ((State.onLine_raster_toNat h.inv _).trans hl)
  rw [State.beamStep_fires hi (hadv ▸ hr) h.enabled h.irqEnRst h.idle, hadv, State.detSample_idle _ (by exact hdet)]
  exact congrArg (fun r => ({ s with scu := { s.scu with raster := r } } : State).matched.seqFire) hr

/-- The matches of a frame: from RASTER the beam is at position `q (k + 1)` when the line armed after `k` matches comes, at
most a frame after the one before. -/
structure State.MatchesAt (s : State) (q : Nat → Nat) (n : Nat) : Prop where
  start : q 0 = s.scu.raster.toNat
  idle : ∀ k ≤ n, (s.served k).seq.seqState = .idle
  next : ∀ k ≤ n, q k < q (k + 1) ∧ q (k + 1) ≤ q k + s.params.hwLines
    ∧ q (k + 1) % s.params.hwLines = (s.served k).scu.compare.toNat

section
variable {s : State} {q : Nat → Nat} {n : Nat} (h : s.Ready) (hq : s.MatchesAt q n)
include h hq

/-- After `k` matches the beam is at the position of the last, and the scheduler ready for the next. -/
theorem State.MatchesAt.beamSteps {k : Nat} (hk : k ≤ n) :
    s.scu.raster.toNat ≤ q k ∧ s.beamSteps (q k - s.scu.raster.toNat) = s.served k ∧ (s.served k).Ready
      ∧ (s.served k).params = s.params ∧ (s.served k).scu.raster.toNat = q k % s.params.hwLines := by
  induction k with
  | zero =>
    refine ⟨hq.start.ge, ?_, h, rfl, ?_⟩
    · rw [hq.start, Nat.sub_self]
      rfl
    · rw [hq.start, Nat.mod_eq_of_lt h.inv.raster_lt]
      rfl
  | succ k ih =>
    obtain ⟨hle, hsteps, hready, hparams, hraster⟩ := ih (by omega)
    obtain ⟨hlater, hwithin, harmed⟩ := hq.next k (by omega)
    have hserve : (s.served k).beamSteps (q (k + 1) - q k) = s.served (k + 1) := by
      apply hready.beamSteps (by omega) (by rw [hparams]; omega)
      rw [hparams, hraster, Nat.mod_add_mod, Nat.add_sub_cancel' hlater.le, harmed]
    have hrun : s.beamSteps (q (k + 1) - s.scu.raster.toNat) = s.served (k + 1) := by
      rw [← hserve, ← hsteps, ← State.beamSteps_add]
      congr 1
      omega
    have hf := (s.served k).atMatch.seqFire_frame
    refine ⟨by omega, hrun, ⟨?_, ?_, ?_, hq.idle _ hk⟩, hf.params.trans hparams, ?_⟩
    · exact hrun ▸ State.beamSteps_inv h.inv _
    · exact hf.enabled.trans hready.enabled
    · exact hf.irqEnRst.trans hready.irqEnRst
    · exact (congrArg BitVec.toNat hf.raster).trans harmed.symm

/-- R136: one frame of beam steps makes the matches whose positions are in it, and then the beam is where it was. -/
theorem State.MatchesAt.frame (hlast : q n ≤ s.scu.raster.toNat + s.params.hwLines)
    (hnext : s.scu.raster.toNat + s.params.hwLines < q (n + 1)) :
    s.beamSteps s.params.hwLines = (s.served n).onLine s.scu.raster.toNat := by
  obtain ⟨hle, hsteps, hready, hparams, hraster⟩ := hq.beamSteps h le_rfl
  obtain ⟨-, hwithin, harmed⟩ := hq.next n le_rfl
  have hrest : s.params.hwLines
      = (q n - s.scu.raster.toNat) + (s.scu.raster.toNat + s.params.hwLines - q n) := by omega
  conv_lhs => rw [hrest, State.beamSteps_add, hsteps]
  rw [State.beamSteps_missed hready.inv (hready.inv.not_detecting hready.enabled)]
  · apply State.onLine_congr
    rw [hparams, hraster, Nat.mod_add_mod, Nat.add_sub_cancel' hlast, Nat.add_mod_right]
  · intro j hj hjd
    rw [hparams, hraster, Nat.mod_add_mod, ← harmed]
    exact mod_ne_mod_of_lt (by omega) (by omega)

end

/-- The first position after RASTER at which the beam is on line `l`. -/
def State.position (s : State) (l : Nat) : Nat :=
  if s.scu.raster.toNat < l then l else l + s.params.hwLines

theorem State.position_mod (s : State) {l : Nat} (hl : l < s.params.hwLines) :
    s.position l % s.params.hwLines = l := by
  unfold State.position
  split
  · exact Nat.mod_eq_of_lt hl
  · rw [Nat.add_mod_right, Nat.mod_eq_of_lt hl]

theorem State.lt_position {s : State} (h : s.Inv) (l : Nat) : s.scu.raster.toNat < s.position l := by
  have := h.raster_lt
  unfold State.position
  split <;> omega

theorem State.position_le (s : State) {l : Nat} (hl : l < s.params.hwLines) :
    s.position l ≤ s.scu.raster.toNat + s.params.hwLines := by
  unfold State.position
  split <;> omega

/-- A ready scheduler has RST = 0, else its fire would be pending (R125). -/
theorem State.Ready.rst {s : State} (h : s.Ready) : s.scu.rst = false := by
  by_contra hr
  have hp : s.firePending = true := s.firePending_iff.mpr
    ⟨h.enabled, h.irqEnRst, by simpa using hr, h.idle, h.inv.not_detecting h.enabled⟩
  exact nomatch hp.symm.trans h.inv.quiet

theorem State.position_lt_position (s : State) {l l' : Nat} (h : l < l')
    (hb : s.scu.raster.toNat < l ∨ l' ≤ s.scu.raster.toNat) : s.position l < s.position l' := by
  unfold State.position
  split <;> split <;> omega

/-- The positions of `n` lines in turn, and of the first in the frame after. -/
def State.cyclePositions (s : State) (n : Nat) (line : Nat → Nat) : Nat → Nat
  | 0 => s.scu.raster.toNat
  | k + 1 => if k < n then s.position (line k) else s.position (line 0) + s.params.hwLines

/-- R136: one frame of beam steps makes a match at each of `n` lines that the beam reaches in this order, if each match
arms the next line and the last one the first again. -/
theorem State.Ready.frame {s : State} (h : s.Ready) {n : Nat} {line : Nat → Nat} (hn : 0 < n)
    (hline : ∀ k < n, line k < s.params.hwLines)
    (hasc : ∀ j k, j < k → k < n → s.position (line j) < s.position (line k))
    (hidle : ∀ k ≤ n, (s.served k).seq.seqState = .idle)
    (harmed : ∀ k < n, (s.served k).scu.compare.toNat = line k) (hback : (s.served n).scu.compare.toNat = line 0) :
    s.beamSteps s.params.hwLines = (s.served n).onLine s.scu.raster.toNat := by
  obtain ⟨m, rfl⟩ := Nat.exists_eq_succ_of_ne_zero hn.ne'
  have hlo (k : Nat) := State.lt_position h.inv (line k)
  have hhi (k : Nat) (hk : k < m + 1) := s.position_le (hline k hk)
  have hfirst : s.position (line 0) ≤ s.position (line m) := by
    cases m with
    | zero => exact le_rfl
    | succ m => exact (hasc 0 (m + 1) (by omega) (by omega)).le
  have hsucc {k : Nat} (hk : k < m + 1) : s.cyclePositions (m + 1) line (k + 1) = s.position (line k) := if_pos hk
  have hlast : s.cyclePositions (m + 1) line (m + 2) = s.position (line 0) + s.params.hwLines :=
    if_neg (Nat.lt_irrefl _)
  have hq : s.MatchesAt (s.cyclePositions (m + 1) line) (m + 1) := by
    refine ⟨rfl, hidle, fun k hk => ?_⟩
    cases k with
    | zero =>
      rw [hsucc hn, s.position_mod (hline 0 hn), harmed 0 hn]
      exact ⟨hlo 0, hhi 0 hn, rfl⟩
    | succ j =>
      obtain hj | rfl : j + 1 < m + 1 ∨ j = m := by omega
      · rw [hsucc hj, hsucc (by omega), s.position_mod (hline _ hj), harmed _ hj]
        have := hlo j
        have := hhi (j + 1) hj
        exact ⟨hasc j (j + 1) (by omega) hj, by omega, rfl⟩
      · rw [hlast, hsucc (by omega), Nat.add_mod_right, s.position_mod (hline 0 hn), hback]
        have := hlo 0
        have := hhi j (by omega)
        exact ⟨by omega, by omega, rfl⟩
  refine hq.frame h ?_ ?_
  · rw [hsucc (by omega)]
    exact hhi m (by omega)
  · rw [hlast]
    exact Nat.add_lt_add_right (hlo 0) _

/-! ### Fewer than two steps -/

/-- A match with no callback to serve: it fires, wraps and acknowledges itself (R127). -/
theorem State.serve_single (s : State)
    (h : s.seq.stepCount = 0 ∨ (s.seq.stepCount = 1 ∧ (s.stepAt 0).cbv = false)) :
    s.serve
      = { s with
          clock := s.clock.wrapped s.metrics
          scu := { s.scu with raster := s.scu.compare, rst := false }
          trace := s.trace ++ [.matched s.scu.compare, .fire (if s.seq.stepCount = 1 then some 0 else none),
            .wrap (s.clock.frameCounter + 1), .selfAck] } := by
  refine (s.atMatch.seqFire_single_selfAck h).trans ?_
  simp only [State.atMatch, State.matched, List.append_assoc, List.singleton_append]
  rfl

/-- Settles O44: the frame has one match, and the line stays armed. -/
theorem singleLineWrapsOncePerFrame : Obligations.SingleLineWrapsOncePerFrame := by
  intro s hi he hirq hidle hn hl
  have h : s.Ready := ⟨hi, he, hirq, hidle⟩
  have hserve : s.served 1 = _ := s.serve_single hn
  rw [h.frame (n := 1) (line := fun _ => s.scu.compare.toNat) Nat.one_pos (fun _ _ => hl) (by omega), hserve,
    State.onLine]
  · simp [Nat.mod_eq_of_lt hi.raster_lt]
  · intro k hk
    obtain rfl | rfl := Nat.le_one_iff_eq_zero_or_eq_one.mp hk
    · exact hidle
    · rw [hserve]; exact hidle
  · intro k hk
    rw [Nat.lt_one_iff.mp hk]
    rfl
  · rw [hserve]

/-! ### Ascending steps -/

/-- The line of step `k`. -/
def State.stepLine (s : State) (k : Nat) : Line := (s.stepAt (BitVec.ofNat 3 k)).line

/-- A match with two or more steps, the current one without a callback (R128). -/
theorem State.serve_multi (s : State) (hn : 2 ≤ s.seq.stepCount.toNat) (hc : (s.stepAt s.seq.curIndex).cbv = false) :
    s.serve
      = { s with
          clock := s.rearmedClock
          seq := { s.seq with curIndex := s.nextIndex }
          scu := { s.scu with raster := s.scu.compare, compare := (s.stepAt s.nextIndex).line, rst := false }
          trace := s.trace ++ [.matched s.scu.compare] ++ [.fire (some s.seq.curIndex)] ++ s.rearmedWraps
            ++ [.selfAck] } :=
  s.atMatch.seqFire_multi_selfAck hn hc

/-- What `k` matches have done, up to the WRAP of the last step: each fired its step (R128). -/
structure State.Fired (s : State) (k : Nat) (t : State) : Prop where
  params : t.params = s.params
  metrics : t.metrics = s.metrics
  clock : t.clock = if k < s.seq.stepCount.toNat then s.clock else s.clock.wrapped s.metrics
  seq : t.seq = { s.seq with curIndex := BitVec.ofNat 3 (k % s.seq.stepCount.toNat) }
  scu : ∃ r, t.scu
    = { s.scu with raster := r, compare := s.stepLine (k % s.seq.stepCount.toNat), rst := false }
  fires : fires t.trace = fires s.trace ++ (List.range k).map fun j => some (BitVec.ofNat 3 j)

theorem ofNat_three_toNat {k : Nat} (hk : k < 8) : (BitVec.ofNat 3 k).toNat = k := Nat.mod_eq_of_lt hk

section
variable {s : State} (h2 : 2 ≤ s.seq.stepCount.toNat) (h8 : s.seq.stepCount.toNat ≤ 8)
  (hcbv : ∀ k : StepIndex, k.toNat < s.seq.stepCount.toNat → (s.stepAt k).cbv = false)
include h2 h8 hcbv

/-- The next match fires the next step and arms the one after it, the first again after the last. -/
theorem State.Fired.serve {t : State} {k : Nat} (h : s.Fired k t) (hk : k < s.seq.stepCount.toNat) :
    s.Fired (k + 1) t.serve := by
  obtain ⟨hparams, hmetrics, hclock, hseq, ⟨r, hscu⟩, hfires⟩ := h
  have hcur : t.seq.curIndex = BitVec.ofNat 3 k := by rw [hseq, Nat.mod_eq_of_lt hk]
  have hcount : t.seq.stepCount = s.seq.stepCount := by rw [hseq]
  have hat (j : StepIndex) : t.stepAt j = s.stepAt j := s.stepAt_congr t (by rw [hseq]) j
  have hnat : (BitVec.ofNat 3 k).toNat = k := ofNat_three_toNat (by omega)
  have hnext : t.nextIndex = BitVec.ofNat 3 ((k + 1) % s.seq.stepCount.toNat) := by
    rw [State.nextIndex, hcur, hnat, hcount]
  have hwrap : t.nextIndex = 0 ↔ ¬ k + 1 < s.seq.stepCount.toNat := by
    have hlt := Nat.mod_lt (k + 1) (by omega : 0 < s.seq.stepCount.toNat)
    rw [hnext, ← BitVec.toNat_inj, ofNat_three_toNat (by omega)]
    obtain hk' | hk' : k + 1 < s.seq.stepCount.toNat ∨ k + 1 = s.seq.stepCount.toNat := by omega
    · simp [Nat.mod_eq_of_lt hk', hk']
    · simp [hk']
  have hc : (t.stepAt t.seq.curIndex).cbv = false := by
    rw [hat, hcur]
    exact hcbv _ (by omega)
  rw [t.serve_multi (hcount ▸ h2) hc]
  constructor
  case params => exact hparams
  case metrics => exact hmetrics
  case clock =>
    simp only [State.rearmedClock, hwrap, hclock, hk, hmetrics, if_true, ite_not]
  case seq => simp only [hnext, hseq]
  case scu => exact ⟨t.scu.compare, by simp only [hat, hnext, hscu, State.stepLine]⟩
  case fires =>
    rw [fires_append, fires_append, fires_append, fires_append, t.fires_rearmedWraps, hfires, hcur, List.range_succ,
      List.map_append]
    simp [Machine.fires]

theorem State.Fired.served (h : s.Fired 0 s) {k : Nat} (hk : k ≤ s.seq.stepCount.toNat) : s.Fired k (s.served k) := by
  induction k with
  | zero => exact h
  | succ k ih => exact State.Fired.serve h2 h8 hcbv (ih (by omega)) hk

end

theorem State.Armed.compare_eq {s : State} (ha : s.Armed) (he : s.seq.enabled = true)
    (h2 : 2 ≤ s.seq.stepCount.toNat) (hcur : s.seq.curIndex = 0) : s.scu.compare = s.stepLine 0 := by
  have hne : s.seq.stepCount ≠ 0 := by
    rintro h0
    simp [h0] at h2
  rw [ha he, if_neg hne, hcur]
  rfl

theorem State.Ready.fired {s : State} (h : s.Ready) (h2 : 2 ≤ s.seq.stepCount.toNat) (hcur : s.seq.curIndex = 0)
    (hline : s.scu.compare = s.stepLine 0) : s.Fired 0 s := by
  constructor
  case params => rfl
  case metrics => rfl
  case clock => rw [if_pos (by omega)]
  case seq => rw [Nat.zero_mod, ← show s.seq.curIndex = BitVec.ofNat 3 0 from hcur]
  case scu => exact ⟨s.scu.raster, by rw [Nat.zero_mod, ← hline, ← h.rst]⟩
  case fires => exact (List.append_nil _).symm

/-- Settles O45: the frame has a match at each step's line in turn, the last of which arms the first step again. -/
theorem ascendingStepsFireOncePerFrame : Obligations.AscendingStepsFireOncePerFrame := by
  intro s hi ha he hirq hidle h2 hcur hsteps hasc hstart t
  have h : s.Ready := ⟨hi, he, hirq, hidle⟩
  have h8 := hi.stepCount_le
  have harmed := ha.compare_eq he h2 hcur
  have hfired := h.fired h2 hcur harmed
  have hserved {k : Nat} (hk : k ≤ s.seq.stepCount.toNat) : s.Fired k (s.served k) :=
    hfired.served h2 h8 (fun k hk => (hsteps k hk).1) hk
  have hline (k : Nat) (hk : k < s.seq.stepCount.toNat) : (s.stepLine k).toNat < s.params.hwLines :=
    (hsteps _ (by rwa [ofNat_three_toNat (by omega)])).2
  have hlt (j k : Nat) (hjk : j < k) (hk : k < s.seq.stepCount.toNat) :
      (s.stepLine j).toNat < (s.stepLine k).toNat :=
    hasc _ _ (by rwa [ofNat_three_toNat (by omega), ofNat_three_toNat (by omega)])
      (by rwa [ofNat_three_toNat (by omega)])
  have hpos (j k : Nat) (hjk : j < k) (hk : k < s.seq.stepCount.toNat) :
      s.position (s.stepLine j).toNat < s.position (s.stepLine k).toNat := by
    have h0 : (s.stepLine 0).toNat ≤ (s.stepLine j).toNat := by
      obtain rfl | hj := j.eq_zero_or_pos
      · exact le_rfl
      · exact (hlt 0 j hj (by omega)).le
    have hl : (s.stepLine k).toNat ≤ (s.stepLine (s.seq.stepCount.toNat - 1)).toNat := by
      obtain hk' | rfl : k < s.seq.stepCount.toNat - 1 ∨ k = s.seq.stepCount.toNat - 1 := by omega
      · exact (hlt k _ hk' (by omega)).le
      · exact le_rfl
    exact s.position_lt_position (hlt j k hjk hk) (hstart.imp h0.trans_lt' hl.trans)
  have ht : t = (s.served s.seq.stepCount.toNat).onLine s.scu.raster.toNat := by
    refine h.frame (line := fun k => (s.stepLine k).toNat) (by omega) hline hpos (fun k hk => ?_) (fun k hk => ?_) ?_
    · rw [(hserved hk).seq]; exact hidle
    · obtain ⟨r, hscu⟩ := (hserved hk.le).scu
      rw [hscu, Nat.mod_eq_of_lt hk]
    · obtain ⟨r, hscu⟩ := (hserved le_rfl).scu
      rw [hscu, Nat.mod_self]
  obtain ⟨hparams, -, hclock, hseq, ⟨r, hscu⟩, hfires⟩ := hserved le_rfl
  rw [ht]
  refine ⟨hfires, hclock.trans (if_neg (Nat.lt_irrefl _)), ?_, ?_⟩
  · rw [Nat.mod_self, ← Nat.zero_mod s.seq.stepCount.toNat] at hseq
    exact hseq.trans hfired.seq.symm
  · simp [State.onLine, hscu, hparams, ← harmed, Nat.mod_eq_of_lt hi.raster_lt]

end Sys2Proof.Machine
end

section
/-! SUPPORT. WRAP as arithmetic on the clock's fields (spec/43_frame_clock.md R139): while the clock is in its bounds no
sum of a WRAP reaches two seconds or 2^16, so a roll is a remainder and nothing is narrowed. -/

namespace Sys2Proof.Machine

section
variable {c : FrameClock} {m : Metrics} (hm : m.Known) (h : c.InBounds m)
include hm h

/-- At most 999 ms, a frame and the correction (R31, R139). -/
theorem FrameClock.millisSum_lt : c.millisSum m < 2000 := by
  have hms := h.millis_le
  obtain ⟨hr, -, -, hf⟩ | ⟨hr, -, -, hf⟩ := hm
  · have hmspf : m.mspf.toNat = 20 := congrArg BitVec.toNat hf
    have hsum := (c.sums_regionA m hr).1
    omega
  · have hmspf : m.mspf.toNat = 16 := congrArg BitVec.toNat hf
    have hsums := c.sums_regionB m hr
    omega

theorem FrameClock.wrapped_millis_toNat_eq_mod : (c.wrapped m).millis.toNat = c.millisSum m % 1000 := by
  have hlt := FrameClock.millisSum_lt hm h
  rw [c.wrapped_millis_toNat]
  split <;> omega

theorem FrameClock.wrapped_seconds_toNat_eq_mod :
    (c.wrapped m).seconds.toNat = (c.seconds.toNat + c.millisSum m / 1000) % 65536 := by
  have hlt := FrameClock.millisSum_lt hm h
  have hs : (c.wrapped m).seconds = if 1000 ≤ c.millisSum m then c.seconds + 1 else c.seconds := rfl
  have h1 : (1 : Half).toNat = 1 := rfl
  rw [hs]
  split
  · rw [BitVec.toNat_add, h1]; omega
  · omega

theorem FrameClock.wrapped_drift_toNat_eq_driftSum : (c.wrapped m).drift.toNat = c.driftSum m := by
  have hd := h.drift_le
  rw [c.wrapped_drift, BitVec.toNat_ofNat]
  obtain ⟨hr, -⟩ | ⟨hr, -⟩ := hm
  · have hsum := (c.sums_regionA m hr).2
    omega
  · have hsums := c.sums_regionB m hr
    omega

end

theorem FrameClock.wrapped_frameCounter_toNat (c : FrameClock) (m : Metrics) :
    (c.wrapped m).frameCounter.toNat = (c.frameCounter.toNat + 1) % 65536 :=
  BitVec.toNat_add _ _

end Sys2Proof.Machine
end

section
/-! PROOFS. WRAP (R139), SOFT_WRAP (R143) and the closed forms of the clock after k WRAPs (R140). -/

namespace Sys2Proof.Machine

/-! ### k WRAPs from the reset clock -/

theorem FrameClock.zero_inBounds (m : Metrics) : FrameClock.zero.InBounds m :=
  ⟨Nat.zero_le _, Nat.zero_le _, fun _ => rfl⟩

theorem FrameClock.wrapTimes_inBounds {c : FrameClock} {m : Metrics} (hm : m.Known) (h : c.InBounds m) (k : Nat) :
    (c.wrapTimes m k).InBounds m := by
  induction k with
  | zero => exact h
  | succ k ih => exact FrameClock.wrapped_inBounds hm ih

/-- The clock reads `frames` frames, `total` milliseconds and a remainder of `drift` microseconds (R140). -/
structure FrameClock.Shows (c : FrameClock) (frames total drift : Nat) : Prop where
  frameCounter : c.frameCounter.toNat = frames % 65536
  millis : c.millis.toNat = total % 1000
  seconds : c.seconds.toNat = total / 1000 % 65536
  drift : c.drift.toNat = drift

/-- A WRAP adds the same milliseconds to the clock and to the total, whose remainder and quotient are millis and seconds
(R139). -/
theorem FrameClock.Shows.wrapped {c : FrameClock} {m : Metrics} {frames total total' drift drift' : Nat}
    (h : c.Shows frames total drift) (hm : m.Known) (hb : c.InBounds m)
    (hms : c.millisSum m + total = c.millis.toNat + total') (hdrift : c.driftSum m = drift') :
    (c.wrapped m).Shows (frames + 1) total' drift' := by
  obtain ⟨hframes, hmillis, hseconds, -⟩ := h
  constructor
  case frameCounter => rw [c.wrapped_frameCounter_toNat, hframes]; omega
  case millis => rw [FrameClock.wrapped_millis_toNat_eq_mod hm hb]; omega
  case seconds => rw [FrameClock.wrapped_seconds_toNat_eq_mod hm hb, hseconds]; omega
  case drift => rw [FrameClock.wrapped_drift_toNat_eq_driftSum hm hb, hdrift]

/-- Region A: 20 ms a frame and no drift (R140). -/
theorem FrameClock.wrapTimes_shows_regionA {m : Metrics} (hm : m.Known) (hr : m.regionA = true)
    (hf : m.mspf.toNat = 20) (k : Nat) : (FrameClock.zero.wrapTimes m k).Shows k (20 * k) 0 := by
  induction k with
  | zero => exact ⟨rfl, rfl, rfl, rfl⟩
  | succ k ih =>
    have hb := FrameClock.wrapTimes_inBounds hm (FrameClock.zero_inBounds m) k
    obtain ⟨hsum, hdrift⟩ := (FrameClock.zero.wrapTimes m k).sums_regionA m hr
    exact ih.wrapped hm hb (by omega) (hdrift.trans ih.drift)

/-- Region B: 16 ms a frame, and one more whenever the frames' 667 µs reach a whole millisecond (R140). -/
theorem FrameClock.wrapTimes_shows_regionB {m : Metrics} (hm : m.Known) (hr : m.regionA = false)
    (hf : m.mspf.toNat = 16) (k : Nat) :
    (FrameClock.zero.wrapTimes m k).Shows k (16 * k + 667 * k / 1000) (667 * k % 1000) := by
  induction k with
  | zero => exact ⟨rfl, rfl, rfl, rfl⟩
  | succ k ih =>
    have hb := FrameClock.wrapTimes_inBounds hm (FrameClock.zero_inBounds m) k
    have hdrift := ih.drift
    have hsums := (FrameClock.zero.wrapTimes m k).sums_regionB m hr
    exact ih.wrapped hm hb (by omega) (by omega)

/-- Settles O34, by induction on the WRAPs in each region. -/
theorem frameClockClosedForms : Obligations.FrameClockClosedForms := by
  intro m k hm
  have hshows : (FrameClock.zero.wrapTimes m k).Shows k
      (if m.regionA = true then 20 * k else 16 * k + 667 * k / 1000)
      (if m.regionA = true then 0 else 667 * k % 1000) := by
    obtain ⟨hr, -, -, hf⟩ | ⟨hr, -, -, hf⟩ := id hm
    · simpa [hr] using FrameClock.wrapTimes_shows_regionA hm hr (congrArg BitVec.toNat hf) k
    · simpa [hr] using FrameClock.wrapTimes_shows_regionB hm hr (congrArg BitVec.toNat hf) k
  exact ⟨hshows.frameCounter, hshows.millis, hshows.seconds, hshows.drift⟩

/-! ### One WRAP -/

/-- Settles O33: each field is its sum's remainder, the correction as each region has it. -/
theorem wrapUpdatesTheFrameClock : Obligations.WrapUpdatesTheFrameClock := by
  intro s hi hv dr c ms t
  have hm := hi.metrics_known hv
  have hb := hi.settling.clock_inBounds
  have hsums : s.clock.millisSum s.metrics = ms ∧ s.clock.driftSum s.metrics = dr - 1000 * c := by
    cases hr : s.metrics.regionA with
    | true =>
      obtain ⟨hms, hdrift⟩ := s.clock.sums_regionA _ hr
      simp [ms, c, dr, hr, hms, hdrift]
    | false =>
      obtain ⟨hc, hms, hdrift⟩ | ⟨hc, hms, hdrift⟩ := s.clock.sums_regionB _ hr
      · simp [ms, c, dr, hr, hms, hdrift, hc]
      · simp [ms, c, dr, hr, hms, hdrift, Nat.not_le.mpr hc]
  obtain ⟨hms, hdrift⟩ := hsums
  have hlt : ms < 2000 := hms ▸ FrameClock.millisSum_lt hm hb
  have hmillis := FrameClock.wrapped_millis_toNat_eq_mod hm hb
  have hseconds := FrameClock.wrapped_seconds_toNat_eq_mod hm hb
  rw [hms] at hmillis hseconds
  refine ⟨FrameClock.wrapped_frameCounter_toNat _ _, ?_, ?_, ?_, rfl⟩
  · exact (FrameClock.wrapped_drift_toNat_eq_driftSum hm hb).trans hdrift
  · refine hmillis.trans ?_
    split <;> omega
  · refine hseconds.trans ?_
    split <;> omega

/-! ### SOFT_WRAP -/

theorem State.quiet_of_disabled {s : State} (h : s.seq.enabled = false) : s.Quiet := by
  simp [State.Quiet, State.firePending, h]

theorem State.runSoftWrap_enabled (s : State) (h : s.seq.enabled = true) : s.runSoftWrap = s := if_pos h

theorem State.runSoftWrap_unmeasured (s : State) (h : s.seq.enabled = false) (hv : s.metrics.valid = false) :
    s.runSoftWrap = s.afterError .metricsInvalid 0x01 := by
  rw [State.runSoftWrap, if_neg (by simp [h]), if_neg (by simp [hv])]
  rfl

theorem State.runSoftWrap_wraps (s : State) (h : s.seq.enabled = false) (hv : s.metrics.valid = true) :
    s.runSoftWrap = s.wrap := by
  rw [State.runSoftWrap, if_neg (by simp [h]), if_pos hv]

/-- Disabled, SOFT_WRAP with metrics is one WRAP, and nothing settles (R125, R143). -/
theorem exec_softWrap_wraps (s : State) (h : s.seq.enabled = false) (hv : s.metrics.valid = true) :
    exec .softWrap s = .next s.wrap :=
  (congrArg State.finish (s.runSoftWrap_wraps h hv)).trans (State.finish_quiet _ (State.quiet_of_disabled h))

/-- Settles O32, branch by branch; its reserved words are of the second kind of R66's list. -/
theorem softWrapRunsOneWrapWhileDisabled : Obligations.SoftWrapRunsOneWrapWhileDisabled := by
  refine ⟨rfl, fun w hop harg => ?_, fun s => ⟨fun he hq => ?_, fun he hv => ?_, exec_softWrap_wraps s⟩⟩
  · exact raisesBadCommand_of_reserved ((decodeCmd_eq_error_iff w).mpr (.inr (.inl ⟨.inr hop, harg⟩)))
  · exact (congrArg State.finish (s.runSoftWrap_enabled he)).trans (s.finish_quiet hq)
  · exact (congrArg State.finish (s.runSoftWrap_unmeasured he hv)).trans
      (State.finish_quiet _ (State.quiet_of_disabled he))

end Sys2Proof.Machine
end

section
/-! SUPPORT. What the host leaves as it is while it waits, and one or two of its turns in a quiet state: a read, the two
reads of a latched pair, and `cmd` (spec/40_register_access.md R50, R69, R71). -/

namespace Sys2Proof.Machine

theorem State.hostTurns_add {s t u : State} {m n : Nat} (h : s.hostTurns m = some t) (ht : t.hostTurns n = some u) :
    s.hostTurns (m + n) = some u := by
  induction n generalizing u with
  | zero => exact h.trans ht
  | succ n ih =>
    rw [← Nat.add_assoc]
    unfold State.hostTurns at ht ⊢
    cases hn : t.hostTurns n with
    | none => simp [hn] at ht
    | some v => simpa only [ih hn, hn] using ht

/-! ### What waiting leaves as it is -/

/-- The live registers and LAST_FRAME are the same in both: a read loads a hold latch at most, and the staging of a
command writes CMD_LO alone (R71, R84). -/
structure State.SameLive (s t : State) : Prop where
  params : t.params = s.params
  scu : t.scu = s.scu
  seq : t.seq = s.seq
  det : t.det = s.det
  metrics : t.metrics = s.metrics
  clock : t.clock = s.clock
  lastFrame : t.host.lastFrame = s.host.lastFrame

theorem State.SameLive.refl (s : State) : s.SameLive s := by constructor <;> rfl

theorem State.SameLive.trans {s t u : State} (h : s.SameLive t) (k : t.SameLive u) : s.SameLive u where
  params := k.params.trans h.params
  scu := k.scu.trans h.scu
  seq := k.seq.trans h.seq
  det := k.det.trans h.det
  metrics := k.metrics.trans h.metrics
  clock := k.clock.trans h.clock
  lastFrame := k.lastFrame.trans h.lastFrame

theorem State.SameLive.quiet {s t : State} (h : s.SameLive t) (hq : s.Quiet) : t.Quiet :=
  (State.firePending_congr s t h.seq h.scu h.det).trans hq

theorem State.sameLive_mapThread (s : State) (f : HostThread → HostThread) : s.SameLive (s.mapThread f) := by
  constructor <;> simp

/-! ### One read -/

/-- The current thread's next operation is taken off, and its read has loaded the latches and returned a byte (R71). -/
def State.afterRead (s : State) (l : HoldLatches) (d : Byte) : State :=
  ({ s.dropOp with hold := l } : State).returnByte d

theorem State.sameLive_afterRead (s : State) (l : HoldLatches) (d : Byte) : s.SameLive (s.afterRead l d) := by
  constructor <;> simp [State.afterRead]

@[simp] theorem State.afterRead_hold (s : State) (l : HoldLatches) (d : Byte) : (s.afterRead l d).hold = l :=
  State.returnByte_hold _ d

@[simp] theorem State.afterRead_thread (s : State) (l : HoldLatches) (d : Byte) :
    (s.afterRead l d).thread = { s.thread with ops := s.thread.ops.tail, data := d } := by
  have hhold : ({ s.dropOp with hold := l } : State).thread = s.dropOp.thread := State.thread_congr rfl
  rw [State.afterRead, State.returnByte_thread, hhold, State.dropOp_thread]

/-- The turn of an operation that reads a register: in a quiet state nothing settles (R71, R125). -/
theorem State.hostTurn_reads {s : State} {op : HostOp} {rest : List HostOp} {off : Offset} {i : Instr} {d : Byte}
    (l : HoldLatches) (hq : s.Quiet) (ho : s.thread.ops = op :: rest) (hk : op.check = none)
    (hc : ∀ p, op.cycle p = some (regRead p off)) (hi : decodeRead off = i)
    (hx : exec i s.dropOp = State.answer { s.dropOp with hold := l } d) :
    s.hostTurn = .next (op.after (s.afterRead l d)) := by
  have hquiet : State.Quiet { s.dropOp with hold := l } := State.quiet_dropOp hq
  rw [State.hostTurn_regRead ho hk hc, hi, hx, State.answer_quiet _ d hquiet]
  rfl

/-! ### The two reads of a latched pair -/

/-- `op` reads the byte at `off` and goes on as `opHi` with it, which reads the byte after that and does `act` with the
two joined (R144). -/
structure HostOp.ActsOnPair {α : Type} (op : HostOp) (opHi : Byte → HostOp) (off : Offset)
    (join : Byte → Byte → α) (act : State → α → State) : Prop where
  check : op.check = none
  cycle : ∀ p, op.cycle p = some (regRead p off)
  after : ∀ t, op.after t = t.pushOps [opHi t.thread.data]
  checkHi : ∀ lo, (opHi lo).check = none
  cycleHi : ∀ lo p, (opHi lo).cycle p = some (regRead p (off + 1))
  afterHi : ∀ lo t, (opHi lo).after t = act t (join t.thread.data lo)

/-- The two turns join the live low byte and the latch it loaded, and act on them. -/
theorem LatchedPair.hostTurns_acts {lo hi : Instr} {low : State → Byte} {latch : HoldLatches → Byte}
    {value : State → Nat} (h : LatchedPair lo hi low latch value) {α : Type} {op : HostOp} {opHi : Byte → HostOp}
    {off : Offset} {join : Byte → Byte → α} {act : State → α → State} (hop : op.ActsOnPair opHi off join act)
    {s : State} {rest : List HostOp} (hlo : decodeRead off = lo) (hhi : decodeRead (off + 1) = hi) (hq : s.Quiet)
    (ho : s.thread.ops = op :: rest) :
    ∃ t, s.hostTurns 2 = some (act t (join (latch (s.dropOp.latched lo)) (low s.dropOp)))
      ∧ s.SameLive t ∧ t.thread.ops = rest := by
  let l := s.dropOp.latched lo
  let u := (s.afterRead l (low s.dropOp)).pushOps [opHi (low s.dropOp)]
  let v := u.afterRead u.dropOp.hold (latch u.dropOp.hold)
  have hu : s.hostTurn = .next u := by
    rw [State.hostTurn_reads l hq ho hop.check hop.cycle hlo (h.lo_answers _), hop.after, State.afterRead_thread]
  have hlive : s.SameLive u := (s.sameLive_afterRead _ _).trans (State.sameLive_mapThread _ _)
  have huo : u.thread.ops = opHi (low s.dropOp) :: rest := by simp [u, ho]
  have hul : u.dropOp.hold = l := by simp [u]
  have hv : u.hostTurn = .next (act v (join (latch l) (low s.dropOp))) := by
    rw [State.hostTurn_reads u.dropOp.hold (hlive.quiet hq) huo (hop.checkHi _) (hop.cycleHi _) hhi (h.hi_answers _),
      hop.afterHi, State.afterRead_thread, ← hul]
  exact ⟨v, State.hostTurns_succ (State.hostTurns_succ rfl hu) hv, hlive.trans (u.sameLive_afterRead _ _),
    by simp [v, huo]⟩

section
variable {op : HostOp} {opHi : Byte → HostOp} {s : State} {rest : List HostOp} (hq : s.Quiet)
  (ho : s.thread.ops = op :: rest)
include hq ho

/-- An operation that reads FC acts on the frame counter whole (R50). -/
theorem State.hostTurns_actsOnFrameCounter {act : State → Half → State}
    (hop : op.ActsOnPair opHi 0x30 (· ++ ·) act) :
    ∃ t, s.hostTurns 2 = some (act t s.clock.frameCounter) ∧ s.SameLive t ∧ t.thread.ops = rest := by
  have h := latchedPair_frameCounter.hostTurns_acts hop rfl rfl hq ho
  have hlatch : (s.dropOp.latched .rdFcLo).fc = highByte s.clock.frameCounter := by simp [State.latched]
  rwa [hlatch, State.dropOp_clock, highByte_append_lowByte] at h

/-- An operation that reads RASTER acts on the raster line whole (R50). -/
theorem State.hostTurns_actsOnRaster {act : State → Line → State} (hop : op.ActsOnPair opHi 0x00 rasterOf act) :
    ∃ t, s.hostTurns 2 = some (act t s.scu.raster) ∧ s.SameLive t ∧ t.thread.ops = rest := by
  have h := latchedPair_raster.hostTurns_acts hop rfl rfl hq ho
  have hlatch : (s.dropOp.latched .rdRasterLo).raster = lineHigh s.scu.raster := by simp [State.latched]
  rwa [hlatch, State.dropOp_scu, rasterOf_bitByte, lineHigh_append_lineLow] at h

end

/-! ### `cmd` -/

/-- The two turns of `cmd w` stage its low byte and run the command it encodes (R69, R85). -/
theorem State.hostTurns_cmd {s : State} {w : Half} {i : Instr} {rest : List HostOp} (hq : s.Quiet)
    (hd : decodeCmd w = .ok i) (ho : s.thread.ops = .cmd w :: rest) :
    ∃ u, s.SameLive u ∧ u.thread.ops = rest ∧ ∀ t, exec i u = .next t → s.hostTurns 2 = some t := by
  let u : State := { s.dropOp with cmdLo := lowByte w }
  have hlive : s.SameLive u := by constructor <;> simp [u]
  have huo : u.thread.ops = rest := by
    have hthread : u.thread = s.dropOp.thread := State.thread_congr rfl
    simp [hthread, ho]
  have hu : s.hostTurn = .next (u.pushOps [.write (u.params.base + 0x09) (highByte w)]) := by
    have hx : exec (decodeWrite 0x08 (lowByte w)) s.dropOp = .next u := State.finish_quiet _ (hlive.quiet hq)
    rw [State.hostTurn_regWrite ho rfl fun _ => rfl, hx]
    rfl
  have hword : u.commandWord (highByte w) = w := highByte_append_lowByte w
  refine ⟨u, hlive, huo, fun t ht => State.hostTurns_succ (State.hostTurns_succ rfl hu) ?_⟩
  rw [State.hostTurn_write (off := 0x09) (congrArg HostThread.ops (u.pushOps_thread _))
      (congrArg (·.base + 0x09) (u.pushOps_params _).symm), u.dropOp_pushOps_single]
  calc exec (.wrCmdHi (highByte w)) u = (u.runWord (u.commandWord (highByte w))).finish := rfl
    _ = (u.runCommand i).finish := by rw [hword, State.runWord_of_decodeCmd hd]
    _ = .next t := (exec_of_decodeCmd hd u).symm.trans ht

end Sys2Proof.Machine
end

section
/-! PROOFS. `waitframe` (spec/43_frame_clock.md R144): its stages, and each branch from the stage it begins with. -/

namespace Sys2Proof.Machine

/-! ### The stages -/

theorem actsOnPair_waitPoll : HostOp.waitPoll.ActsOnPair .waitPollHi 0x30 (· ++ ·) State.pollFrame := by
  constructor <;> intros <;> rfl

theorem actsOnPair_waitRecord : HostOp.waitRecord.ActsOnPair .waitRecordHi 0x30 (· ++ ·) State.setLastFrame := by
  constructor <;> intros <;> rfl

theorem actsOnPair_waitBelow : HostOp.waitBelow.ActsOnPair .waitBelowHi 0x00 rasterOf State.pollBelow := by
  constructor <;> intros <;> rfl

theorem actsOnPair_waitAbove : HostOp.waitAbove.ActsOnPair .waitAboveHi 0x00 rasterOf State.pollAbove := by
  constructor <;> intros <;> rfl

/-- How a poll of the enabled branch ends: FC is polled again, or recorded (R144). -/
def State.Polled (s : State) (rest : List HostOp) (t : State) : Prop :=
  (s.clock.frameCounter = s.host.lastFrame → t.thread.ops = .waitPoll :: rest ∧ t.host.lastFrame = s.host.lastFrame)
    ∧ (s.clock.frameCounter ≠ s.host.lastFrame → t.thread.ops = rest ∧ t.host.lastFrame = s.clock.frameCounter)

/-- How a poll of the disabled branch's first loop ends: the second loop, or the first again (R144). -/
def State.Looped (s : State) (rest : List HostOp) (t : State) : Prop :=
  t.thread.ops = (if s.scu.raster.toNat < s.params.pollThreshold then HostOp.waitAbove else .waitBelow) :: rest

section
variable {s u : State} {rest : List HostOp} (h : s.SameLive u) (hq : s.Quiet)
include h hq

theorem State.SameLive.hostTurns_waitPoll (ho : u.thread.ops = .waitPoll :: rest) :
    ∃ t, u.hostTurns 2 = some t ∧ s.Polled rest t := by
  obtain ⟨t, ht, hlive, hops⟩ := State.hostTurns_actsOnFrameCounter (h.quiet hq) ho actsOnPair_waitPoll
  rw [h.clock] at ht
  have hlast := (h.trans hlive).lastFrame
  refine ⟨_, ht, fun heq => ?_, fun hne => ?_⟩
  · rw [State.pollFrame, if_pos (heq.trans hlast.symm)]
    exact ⟨by simp [hops], by simp [hlast]⟩
  · rw [State.pollFrame, if_neg (hlast ▸ hne)]
    exact ⟨(congrArg HostThread.ops (State.thread_congr rfl)).trans hops, rfl⟩

theorem State.SameLive.hostTurns_waitBelow (ho : u.thread.ops = .waitBelow :: rest) :
    ∃ t, u.hostTurns 2 = some t ∧ s.Looped rest t := by
  obtain ⟨t, ht, hlive, hops⟩ := State.hostTurns_actsOnRaster (h.quiet hq) ho actsOnPair_waitBelow
  rw [h.scu] at ht
  refine ⟨_, ht, ?_⟩
  rw [State.Looped, State.pollBelow, (h.trans hlive).params]
  split <;> simp [hops]

end

section
variable {s : State} {rest : List HostOp} (hq : s.Quiet)
include hq

theorem State.hostTurns_waitAbove_below (ho : s.thread.ops = .waitAbove :: rest)
    (hr : s.scu.raster.toNat < s.params.pollThreshold) :
    ∃ t, s.hostTurns 2 = some t ∧ t.thread.ops = .waitAbove :: rest := by
  obtain ⟨t, ht, hlive, hops⟩ := State.hostTurns_actsOnRaster hq ho actsOnPair_waitAbove
  refine ⟨_, ht, ?_⟩
  rw [State.pollAbove, hlive.params, if_neg (Nat.not_le.mpr hr)]
  simp [hops]

/-- At or above the threshold the two loops are over: `softwrap` comes next, and then the record (R144). -/
theorem State.hostTurns_waitAbove_reached (ho : s.thread.ops = .waitAbove :: rest)
    (hr : s.params.pollThreshold ≤ s.scu.raster.toNat) :
    ∃ t, s.hostTurns 2 = some t ∧ s.SameLive t ∧ t.thread.ops = .cmd 0x6000 :: .waitRecord :: rest := by
  obtain ⟨t, ht, hlive, hops⟩ := State.hostTurns_actsOnRaster hq ho actsOnPair_waitAbove
  refine ⟨_, ht, ?_⟩
  rw [State.pollAbove, hlive.params, if_pos hr]
  exact ⟨hlive.trans (t.sameLive_mapThread _), by simp [hops]⟩

end

/-- Disabled with metrics, `softwrap` is one WRAP (R143). -/
theorem State.hostTurns_softWrap {s : State} {rest : List HostOp} (he : s.seq.enabled = false)
    (hv : s.metrics.valid = true) (ho : s.thread.ops = .cmd 0x6000 :: rest) :
    ∃ t, s.hostTurns 2 = some t ∧ t.thread.ops = rest ∧ t.Quiet ∧ t.clock = s.clock.wrapped s.metrics := by
  obtain ⟨u, hlive, huo, hrun⟩ := State.hostTurns_cmd (i := .softWrap) (State.quiet_of_disabled he) rfl ho
  have hue : u.seq.enabled = false := hlive.seq ▸ he
  refine ⟨u.wrap, hrun _ (exec_softWrap_wraps u hue (hlive.metrics ▸ hv)), ?_, State.quiet_of_disabled hue, ?_⟩
  · exact (congrArg HostThread.ops (State.thread_congr rfl)).trans huo
  · rw [u.wrap_clock, hlive.clock, hlive.metrics]

/-- The last stage records the frame counter (R144). -/
theorem State.hostTurns_waitRecord {s : State} {rest : List HostOp} (hq : s.Quiet)
    (ho : s.thread.ops = .waitRecord :: rest) :
    ∃ t, s.hostTurns 2 = some t ∧ t.thread.ops = rest ∧ t.clock = s.clock
      ∧ t.host.lastFrame = s.clock.frameCounter := by
  obtain ⟨t, ht, hlive, hops⟩ := State.hostTurns_actsOnFrameCounter hq ho actsOnPair_waitRecord
  exact ⟨_, ht, (congrArg HostThread.ops (State.thread_congr rfl)).trans hops, hlive.clock, rfl⟩

/-! ### The two branches -/

theorem lowBit_statusByte (s : State) : lowBit s.statusByte = s.seq.enabled := by
  rw [lowBit, State.statusByte, BitVec.getLsbD_append]
  simp

/-- The read of STATUS chooses the branch by ENABLED (R144). -/
theorem State.hostTurns_waitFrame {s : State} {rest : List HostOp} (hq : s.Quiet)
    (ho : s.thread.ops = .waitFrame :: rest) :
    ∃ u, s.hostTurns 1 = some u ∧ s.SameLive u
      ∧ u.thread.ops = (if s.seq.enabled = true then HostOp.waitPoll else .waitBelow) :: rest := by
  let d := s.dropOp.statusByte
  have hx : exec .rdStatus s.dropOp = State.answer { s.dropOp with hold := s.dropOp.hold } d := rfl
  have ht := State.hostTurn_reads (off := 0x0A) _ hq ho rfl (fun _ => rfl) rfl hx
  have hd : lowBit d = s.seq.enabled := by rw [lowBit_statusByte, State.dropOp_seq]
  have hlive := s.sameLive_afterRead s.dropOp.hold d
  refine ⟨_, State.hostTurns_succ rfl ht, ?_⟩
  simp only [HostOp.after, s.afterRead_thread, hd]
  split <;> exact ⟨hlive.trans (State.sameLive_mapThread _ _), by simp [ho]⟩

/-- Settles O60, stage by stage: what a stage leaves unchanged is what the next one reads. -/
theorem waitFrameFollowsItsTwoBranches : Obligations.WaitFrameFollowsItsTwoBranches := by
  intro s rest hi polled looped
  have hq := hi.quiet
  have hrefl := State.SameLive.refl s
  refine ⟨fun ho he => ?_, hrefl.hostTurns_waitPoll hq, fun ho he => ?_, hrefl.hostTurns_waitBelow hq,
    State.hostTurns_waitAbove_below hq, fun ho hr he hv => ?_⟩
  · obtain ⟨u, hu, hlive, huo⟩ := State.hostTurns_waitFrame hq ho
    obtain ⟨t, ht, hpolled⟩ := hlive.hostTurns_waitPoll hq (huo.trans (by rw [if_pos he]))
    exact ⟨t, State.hostTurns_add hu ht, hpolled⟩
  · obtain ⟨u, hu, hlive, huo⟩ := State.hostTurns_waitFrame hq ho
    obtain ⟨t, ht, hlooped⟩ := hlive.hostTurns_waitBelow hq (huo.trans (by rw [if_neg (by simp [he])]))
    exact ⟨t, State.hostTurns_add hu ht, hlooped⟩
  · obtain ⟨u, hu, hlive, huo⟩ := State.hostTurns_waitAbove_reached hq ho hr
    obtain ⟨v, hv', hvo, hvq, hvc⟩ := State.hostTurns_softWrap (hlive.seq ▸ he) (hlive.metrics ▸ hv) huo
    obtain ⟨t, ht, hto, htc, hlast⟩ := State.hostTurns_waitRecord hvq hvo
    have hclock : v.clock = s.clock.wrapped s.metrics := by rw [hvc, hlive.clock, hlive.metrics]
    refine ⟨t, State.hostTurns_add (State.hostTurns_add hu hv') ht, hto, htc.trans hclock, ?_⟩
    rw [hlast, hclock, FrameClock.wrapped_frameCounter]

end Sys2Proof.Machine
end

section
/-! PROOFS. The error state (spec/60_exceptions.md R146, R147): what one step can do to ERR and ERR_CODE. -/

namespace Sys2Proof.Machine

/-- The error state stands, or the first BlockError sets ERR and its code (R146, R147). -/
def State.ErrorStep (s t : State) : Prop :=
  t.err = s.err ∨ (s.err.flag = false ∧ ∃ e : BlockError, t.err = { flag := true, code := e.code })

theorem BlockError.code_eq_one_or_two (e : BlockError) : e.code = 0x01 ∨ e.code = 0x02 := by
  cases e with
  | metricsInvalid => exact .inl rfl
  | badCommand => exact .inr rfl

/-- A second error leaves the error state as the first one made it (R146). -/
theorem State.raiseError_errorStep (s : State) (e : BlockError) : s.ErrorStep (s.raiseError e) := by
  rw [State.ErrorStep, s.raiseError_err e]
  cases hf : s.err.flag with
  | true => exact .inl (by simp [← hf])
  | false => exact .inr ⟨rfl, e, rfl⟩

theorem State.Effect.errorStep {s u : State} {i : Instr} (he : s.Effect i u) : s.ErrorStep u := by
  cases he with
  | read i hold d => exact .inl (by simp)
  | error i e => exact s.raiseError_errorStep e
  | nothing | stage | compareLo | mode | irqEn | clearRst | endRequest | detect | enable | disable | append | setDebug
  | wrap => exact .inl rfl

@[simp] theorem State.compareMatch_err (s : State) : s.compareMatch.err = s.err := by
  unfold State.compareMatch; split <;> rfl

@[simp] theorem State.detSample_err (s : State) : s.detSample.err = s.err := by
  unfold State.detSample; split <;> (try split) <;> rfl

theorem State.beamStep_err (s : State) : s.beamStep.err = s.err := by
  rw [State.beamStep, (State.settle_frame _).err, State.detSample_err, State.compareMatch_err, s.advanceRaster_err]

theorem State.Moves.errorStep {s t : State} (h : s.Moves t) : s.ErrorStep t := by
  cases h with
  | nothing | callback => exact .inl rfl
  | beam => exact .inl s.beamStep_err
  | exec i t he =>
    obtain ⟨u, hu, rfl⟩ := exec_effect i s t he
    rw [State.ErrorStep, u.settle_frame.err]
    exact hu.errorStep

/-- Settles O46, by the one move of the step. -/
theorem errorStateIsStickyAndKeepsTheFirstCode : Obligations.ErrorStateIsStickyAndKeepsTheFirstCode := by
  intro s t hstep
  obtain ⟨u, v, hsu, huv, hvt⟩ := step_moves s t hstep
  have herr := huv.errorStep
  rw [State.ErrorStep, ← hvt.block.err, hsu.block.err] at herr
  obtain heq | ⟨hf, e, he⟩ := herr
  · exact ⟨fun _ => heq, fun hne => absurd heq hne⟩
  · refine ⟨fun ht => absurd (hf.symm.trans ht) nofun, fun _ => ⟨hf, ?_⟩⟩
    rw [he]
    exact ⟨rfl, e.code_eq_one_or_two⟩

end Sys2Proof.Machine
end

section
/-! PROOFS. The host's own steps (spec/60_exceptions.md R151, R153, R154, spec/10_state.md R35): interrupt entry, `rti`,
the mask and ROM_DISABLED. -/

namespace Sys2Proof.Machine

/-! ### Interrupt entry -/

theorem State.entryEnabled_iff (s : State) :
    s.entryEnabled = true ↔ s.irqOut = true ∧ s.host.hostI = false ∧ s.host.context = .mainline := by
  simp [State.entryEnabled, and_assoc]

/-- An entry that is possible is R151's. -/
theorem step_entry (s : State) (ts : List Turn) (hv : s.params.Valid) (ht : s.turns = .entry :: ts)
    (h : s.entryEnabled = true) : step s = ({ s with turns := ts } : State).takeInterrupt :=
  (step_turn s .entry ts hv ht).trans (if_pos h)

/-- An entry that is not possible only passes (log 5). -/
theorem step_no_entry (s : State) (ts : List Turn) (hv : s.params.Valid) (ht : s.turns = .entry :: ts)
    (h : s.entryEnabled = false) : step s = .next { s with turns := ts } :=
  (step_turn s .entry ts hv ht).trans (if_neg (ne_true_of_eq_false h))

/-- Settles O53: a possible entry is one of the two cases of `takeInterrupt`, told apart by the slots. -/
theorem interruptEntryMasksAndRunsTheHandler : Obligations.InterruptEntryMasksAndRunsTheHandler := by
  intro s ts hv ht
  let u : State := { s with turns := ts }
  refine ⟨fun hentry => ?_, fun hno => step_no_entry s ts hv ht ?_⟩
  · rw [step_entry s ts hv ht (s.entryEnabled_iff.mpr hentry)]
    obtain ⟨he, hne, hfault⟩ | ⟨hslot, hnext⟩ := u.takeInterrupt_cases
    · exact ⟨fun _ => hfault, fun hs => absurd (hs he) hne⟩
    · exact ⟨fun ⟨he, hne⟩ => absurd (hslot he) hne, fun _ => hnext⟩
  · rw [← Bool.not_eq_true, s.entryEnabled_iff]
    rintro ⟨hirq, hi, hc⟩
    simp [hirq, hi, hc] at hno

/-! ### The operations -/

/-- An operation without a transaction is one of the host's own steps (R11). -/
theorem State.runHostOp_local (s : State) {op : HostOp} (hk : op.check = none) (hc : op.cycle s.params = none) :
    s.runHostOp op = s.runLocal op := by
  simp only [State.runHostOp, hk, hc]

theorem State.unmask_mainline (s : State) (hc : s.host.context = .mainline) : s.unmask = .next (s.setHostI false) := by
  simp only [State.unmask, hc]

theorem State.unmask_interrupt (s : State) (hc : s.host.context = .interrupt) : s.unmask = .fault .nestedInterrupt := by
  simp only [State.unmask, hc]

/-- The state after `rti`: mainline goes on, unmasked (R153). -/
def State.resumed (s : State) : State :=
  { s with
    host := { s.host with hostI := false, context := .mainline, intr := { s.host.intr with ops := [] } } }

theorem State.returnFromInterrupt_interrupt (s : State) (hc : s.host.context = .interrupt) :
    s.returnFromInterrupt = .next s.resumed := by
  simp only [State.returnFromInterrupt, hc, State.resumed]

/-- Settles O54, operation by operation. -/
theorem hostOperationsActOnTheHostOnly : Obligations.HostOperationsActOnTheHostOnly := by
  intro s
  have hlocal {op : HostOp} (hk : op.check = none) (hc : op.cycle s.params = none) := s.runHostOp_local hk hc
  refine ⟨hlocal rfl rfl, fun hc => ?_, fun hc => ?_, ⟨s.yieldBit s.host.hostI, hlocal rfl rfl, ?_, ?_⟩,
    fun hc => ?_, fun v => hlocal rfl rfl⟩
  · exact (hlocal rfl rfl).trans (s.unmask_mainline hc)
  · exact (hlocal rfl rfl).trans (s.unmask_interrupt hc)
  · rw [s.yieldBit_thread]
  · exact (s.hostFrame_mapThread _).block
  · have hrti : s.runLocal .rti = .next s.resumed := s.returnFromInterrupt_interrupt hc
    exact ⟨s.resumed, (hlocal rfl rfl).trans hrti, rfl, rfl, rfl, (s.runLocal_block _ _ hrti).1⟩

end Sys2Proof.Machine
end

section
/-! PROOFS. The dispatcher (spec/60_exceptions.md R152): its read of CB_STEP and the callback it calls, and then its
acknowledge and `rti`. -/

namespace Sys2Proof.Machine

/-! ### What interrupt code leaves alone -/

theorem State.thread_interrupt {s : State} (hc : s.host.context = .interrupt) : s.thread = s.host.intr := by
  simp only [State.thread, hc]

/-- The saved mainline context is not the interrupt thread's to change (R153). -/
theorem State.mapThread_host_main_of_interrupt {s : State} (hc : s.host.context = .interrupt)
    (f : HostThread → HostThread) : (s.mapThread f).host.main = s.host.main := by
  simp only [State.mapThread, hc]

theorem State.callback_congr {s t : State} (h : t.host.hostCb = s.host.hostCb) (k : StepIndex) :
    t.callback k = s.callback k := by
  simp only [State.callback, h]

/-! ### The dispatcher's operations -/

/-- A plain read at a register's address is the read its offset selects (R42, R71). -/
theorem State.hostTurn_read {s : State} {rest : List HostOp} {addr : Nat} {off : Offset}
    (ho : s.thread.ops = .read addr :: rest) (ha : addr = s.params.base + off.toNat) :
    s.hostTurn = exec (decodeRead off) s.dropOp := by
  have hop : HostOp.read addr = busOp s.dropOp.params (busWord false off 0) := by simp [busOp, ha]
  rw [s.hostTurn_busy _ rest ho, hop, State.runHostOp_busOp, decodeBus_read]

/-- The low three bits of CB_STEP's byte are the step (R91). -/
theorem extractLsb'_indexByte : ∀ k : StepIndex, (indexByte k).extractLsb' 0 3 = k := by decide

/-- The state after the call of HOST_CB[k]. -/
def State.calling (s : State) (k : StepIndex) : State :=
  ((s.emit (.cbRun k)).countCall k).pushOps (s.callback k).body

theorem State.calling_ops (s : State) (k : StepIndex) :
    (s.calling k).thread.ops = (s.callback k).body ++ s.thread.ops := by
  rw [State.calling, State.pushOps_thread, State.countCall_thread, show (s.emit (.cbRun k)).thread = s.thread from rfl]

theorem State.calling_callback (s : State) (k : StepIndex) : (s.calling k).callback k = (s.callback k).called :=
  (State.callback_congr (State.pushOps_host_hostCb _ _) k).trans ((s.emit (.cbRun k)).countCall_callback k)

theorem State.calling_host_main (s : State) (hc : s.host.context = .interrupt) (k : StepIndex) :
    (s.calling k).host.main = s.host.main :=
  State.mapThread_host_main_of_interrupt (s := (s.emit (.cbRun k)).countCall k) hc _

theorem State.callCallback_interrupt {s : State} {k : StepIndex} (hc : s.host.context = .interrupt)
    (hd : s.thread.data = indexByte k) : s.callCallback = .next (s.calling k) := by
  simp only [State.callCallback, hc, hd, extractLsb'_indexByte, State.calling]

/-- The write of IRQ_STATUS ends the outstanding request (R80). -/
theorem exec_wrIrqStatus_endRequest (s : State) (hw : s.seq.seqState = .cbWait) :
    exec (.wrIrqStatus 0x01) s = .next s.endRequest := by
  rw [exec_wrIrqStatus_set s rfl, s.acknowledge_cbWait hw]

theorem State.hostTurn_runCallback {s : State} {k : StepIndex} {rest : List HostOp} (hc : s.host.context = .interrupt)
    (ho : s.thread.ops = .runCallback :: rest) (hd : s.thread.data = indexByte k) :
    s.hostTurn = .next (s.dropOp.calling k) := by
  rw [s.hostTurn_busy _ rest ho, s.dropOp.runHostOp_local rfl rfl]
  exact State.callCallback_interrupt (s.dropOp_host_context.trans hc) (by rw [s.dropOp_thread, hd])

theorem State.hostTurn_rti {s : State} {rest : List HostOp} (hc : s.host.context = .interrupt)
    (ho : s.thread.ops = .rti :: rest) : s.hostTurn = .next s.dropOp.resumed := by
  rw [s.hostTurn_busy _ rest ho, s.dropOp.runHostOp_local rfl rfl]
  exact s.dropOp.returnFromInterrupt_interrupt (s.dropOp_host_context.trans hc)

/-! ### The call, and the return -/

/-- The dispatcher of `s` has called HOST_CB[CB_STEP] in `t`. -/
structure State.Called (s t : State) : Prop where
  block : s.SameBlock t
  context : t.host.context = .interrupt
  main : t.host.main = s.host.main
  ops : t.thread.ops = (s.callback s.seq.cbStep).body ++ [.write (s.params.base + 0x04) 0x01, .rti]
  callback : t.callback s.seq.cbStep = (s.callback s.seq.cbStep).called
  trace : t.trace = s.trace ++ [.cbRun s.seq.cbStep]

/-- The first two turns: the read returns the byte of CB_STEP, whose callback the second calls (R152). -/
theorem State.hostTurns_call {s : State} (hq : s.Quiet) (hc : s.host.context = .interrupt)
    (ho : s.host.intr.ops = dispatchOps s.params) : ∃ t, s.hostTurns 2 = some t ∧ s.Called t := by
  let k := s.seq.cbStep
  let u := s.dropOp.returnByte (indexByte k)
  let v := u.dropOp
  have hops : s.thread.ops = dispatchOps s.params := by rw [State.thread_interrupt hc, ho]
  have hread : s.hostTurn = .next u := by
    rw [State.hostTurn_read (off := 0x0E) hops rfl]
    calc exec .rdCbStep s.dropOp = s.dropOp.answer (indexByte s.dropOp.seq.cbStep) := rfl
      _ = .next u := by rw [s.dropOp_seq, State.answer_quiet _ _ (State.quiet_dropOp hq)]
  have huc : u.host.context = .interrupt := by simp [u, hc]
  have huo : u.thread.ops = [.runCallback, .write (s.params.base + 0x04) 0x01, .rti] := by simp [u, hops, dispatchOps]
  have hcall : u.hostTurn = .next (v.calling k) := State.hostTurn_runCallback huc huo (by simp [u])
  have hcb : v.callback k = s.callback k := State.callback_congr (by simp [v, u]) k
  refine ⟨v.calling k, State.hostTurns_succ (State.hostTurns_succ rfl hread) hcall, ?_⟩
  have hvc : v.host.context = .interrupt := u.dropOp_host_context.trans huc
  have hmain : v.host.main = s.host.main := by
    calc v.host.main = u.host.main := State.mapThread_host_main_of_interrupt huc _
      _ = s.dropOp.host.main := State.mapThread_host_main_of_interrupt (s.dropOp_host_context.trans hc) _
      _ = s.host.main := State.mapThread_host_main_of_interrupt hc _
  exact
    { block := by constructor <;> simp [State.calling, v, u]
      context := by simp [State.calling, hvc]
      main := (v.calling_host_main hvc k).trans hmain
      ops := by rw [v.calling_ops, hcb, u.dropOp_thread, huo]; rfl
      callback := by rw [v.calling_callback, hcb]
      trace := by simp [State.calling, v, u, k] }

/-- After an empty callback the last two turns end its request and resume mainline (R80, R153). -/
theorem State.Called.hostTurns_return {s t : State} (h : s.Called t) (hw : s.seq.seqState = .cbWait)
    (hb : (s.callback s.seq.cbStep).body = []) :
    ∃ v, t.hostTurns 2 = some v
      ∧ v.trace = s.trace ++ [.cbRun s.seq.cbStep, .cbDone s.seq.cbStep]
      ∧ v.seq.seqState = .idle ∧ v.scu.rst = false ∧ v.host.context = .mainline ∧ v.host.hostI = false
      ∧ v.host.main = s.host.main ∧ v.clock = s.clock := by
  let u := t.dropOp.endRequest
  have hops : t.thread.ops = [.write (t.params.base + 0x04) 0x01, .rti] := by
    rw [h.ops, hb, h.block.params, List.nil_append]
  have hack : t.hostTurn = .next u := by
    rw [State.hostTurn_write (off := 0x04) hops rfl]
    exact exec_wrIrqStatus_endRequest _ (by rw [t.dropOp_seq, h.block.seq, hw])
  have huo : u.thread.ops = [.rti] := by
    rw [show u.thread = t.dropOp.thread from State.thread_congr rfl, t.dropOp_thread, hops]
    rfl
  have huc : u.host.context = .interrupt := t.dropOp_host_context.trans h.context
  refine ⟨u.dropOp.resumed, State.hostTurns_succ (State.hostTurns_succ rfl hack) (State.hostTurn_rti huc huo),
    ?_, ?_, ?_, rfl, rfl, ?_, ?_⟩
  · calc u.dropOp.trace = t.dropOp.trace ++ [.cbDone t.dropOp.seq.cbStep] := u.dropOp_trace
      _ = s.trace ++ [.cbRun s.seq.cbStep, .cbDone s.seq.cbStep] := by simp [h.trace, h.block.seq]
  · exact congrArg Sequencer.seqState u.dropOp_seq
  · exact congrArg Scu.rst u.dropOp_scu
  · calc u.dropOp.host.main = u.host.main := State.mapThread_host_main_of_interrupt huc _
      _ = t.host.main := State.mapThread_host_main_of_interrupt h.context _
      _ = s.host.main := h.main
  · exact (u.dropOp_clock.trans t.dropOp_clock).trans h.block.clock

/-- Settles O55: the call, and after an empty callback the return. -/
theorem dispatcherRunsTheRequestedCallback : Obligations.DispatcherRunsTheRequestedCallback := by
  intro s hi hc ho
  obtain ⟨t, ht, hcalled⟩ := State.hostTurns_call hi.quiet hc ho
  refine ⟨⟨t, ht, hcalled.ops, hcalled.callback, hcalled.trace⟩, fun hw hb => ?_⟩
  obtain ⟨v, hv, hreturn⟩ := hcalled.hostTurns_return hw hb
  exact ⟨v, State.hostTurns_add ht hv, hreturn⟩

end Sys2Proof.Machine
end
